-- ==== Sys2Proof/Word.lean ====
section
/-!
DEFINITION. The words of the RedPill-T frame codec: the byte, the 16-bit and the 32-bit word
(spec/00_scope.md rules R9 and R10; every wider field is built from bytes, R11).
-/

namespace Sys2Proof

/-- A byte, `u8` (R9, R10). -/
abbrev Byte := BitVec 8

/-- A 16-bit word, `u16`: the length of a buffer operand and a READ address (R88). -/
abbrev Half := BitVec 16

/-- A 32-bit word, `u32`: a timestamp, a tag, the key, a ping word, a READ value (R10, R11). -/
abbrev Word := BitVec 32

end Sys2Proof
end

