-- ==== Sys2Proof/Machine/Bytes.lean ====
section
/-!
DEFINITION. Byte sequences and the conversions between bytes and words: spec/00_scope.md rules R9,
R10 and R11, spec/20_memory.md rules R62 and R64 (everything is big-endian; nothing switches it).
-/

namespace Sys2Proof.Machine

/-- `zeros(n)`: `n` bytes of `0x00` (R9). -/
def zeros (n : Nat) : List Byte := List.replicate n 0

/-- `B[i]`, byte `i` of a byte sequence (R9).  Every rule that reads `B[i]` has checked the length
first; past the end this total function answers `0x00`. -/
def byteAt (b : List Byte) (i : Nat) : Byte := b.getD i 0

/-- `n` bytes of a sequence from offset `at`: `B[at .. at+n-1]` (R9), `MemRead(buf, addr, n)` (R12). -/
def bytesFrom (b : List Byte) (off n : Nat) : List Byte := (b.drop off).take n

/-- `BE16(b0, b1)`: `b0` is the most significant byte (R11). -/
def be16 (b0 b1 : Byte) : Half := b0 ++ b1

/-- `BYTES16(v)`, most significant byte first (R11). -/
def bytes16 (v : Half) : List Byte := [v.extractLsb' 8 8, v.extractLsb' 0 8]

/-- `BE32(b0, b1, b2, b3)`, the word `{b0, b1, b2, b3}` (R11). -/
def be32 (b0 b1 b2 b3 : Byte) : Word := b0 ++ b1 ++ b2 ++ b3

/-- `BYTES32(v) = [v[31:24], v[23:16], v[15:8], v[7:0]]` (R11). -/
def bytes32 (v : Word) : List Byte :=
  [v.extractLsb' 24 8, v.extractLsb' 16 8, v.extractLsb' 8 8, v.extractLsb' 0 8]

/-- `BYTES64(v)`, the 8-byte big-endian form of a bit length (R166). -/
def bytes64 (v : BitVec 64) : List Byte :=
  bytes32 (v.extractLsb' 32 32) ++ bytes32 (v.extractLsb' 0 32)

/-- `BE16` of the two bytes of `b` at offset `off` (R89). -/
def be16At (b : List Byte) (off : Nat) : Half := be16 (byteAt b off) (byteAt b (off + 1))

/-- `BE32` of the four bytes of `b` at offset `off` (R85, R86, R89). -/
def be32At (b : List Byte) (off : Nat) : Word :=
  be32 (byteAt b off) (byteAt b (off + 1)) (byteAt b (off + 2)) (byteAt b (off + 3))

/-- A one-bit register or input as a bit vector: 1 when it is set (R9). -/
def bit (b : Bool) : BitVec 1 := BitVec.ofBool b

/-- `sint8(b)`: the value of a byte read as two's complement, `b` if `b < 128`, else `b - 256` (R10). -/
def sint8 (b : Byte) : Int := if b.toNat < 128 then (b.toNat : Int) else (b.toNat : Int) - 256

end Sys2Proof.Machine
end

