-- ==== Sys2Proof/Syntax.lean ====
section
/-!
DEFINITION. The operations of the block: one constructor per row of spec/opcode_table.json, with the
operands of spec/30_encoding.md rules R88 and R89.
-/

namespace Sys2Proof

/-- A host operation (R90).  The block is not programmable: these eight are its whole repertoire. -/
inductive Instr where
  /-- ENCODE (`OP = 0x01`, `F-ENC`): build a frame for an origin station, with or without the ECC
  flag, of a command code and a payload, at the host's clock `now` (R110). -/
  | encode (origin : Byte) (ecc : Bool) (code : Byte) (payload : List Byte) (now : Word)
  /-- DECODE (`OP = 0x02`, `F-BUF`): parse one frame candidate (R130). -/
  | decode (input : List Byte)
  /-- RECEIVE (`OP = 0x03`, `F-BUF`): parse one frame candidate and classify it as a reply (R210). -/
  | receive (input : List Byte)
  /-- SEND (`OP = 0x04`, `F-NONE`): transmit the held frame (R201). -/
  | send
  /-- TICK (`OP = 0x05`, `F-NONE`): one firing of the 1-second timeout check (R220). -/
  | tick
  /-- ABORT (`OP = 0x06`, `F-NONE`): drop the held frame (R230). -/
  | abort
  /-- TAG (`OP = 0x07`, `F-BUF`): the truncated HMAC of a byte sequence (R160). -/
  | tag (input : List Byte)
  /-- READ (`OP = 0x08`, `F-ADDR`): read one register or buffer byte (R240). -/
  | read (addr : Half)
  deriving DecidableEq, Repr

end Sys2Proof
end

