-- ==== Sys2Proof/WellFormed.lean ====
section
/-!
DEFINITION. Which operations a message can carry: the length operands of spec/30_encoding.md rules R88
and R89 are one byte (`len`) and two bytes (`n`).
-/

namespace Sys2Proof

/-- The operands fit the message: an `F-ENC` payload of at most 255 bytes, an `F-BUF` input of at most
65535 bytes (R89).  A well-formed operation may still raise an error (R93). -/
def Instr.wellFormed : Instr → Bool
  | .encode _ _ _ payload _ => decide (payload.length ≤ 255)
  | .decode input => decide (input.length ≤ 65535)
  | .receive input => decide (input.length ≤ 65535)
  | .send => true
  | .tick => true
  | .abort => true
  | .tag input => decide (input.length ≤ 65535)
  | .read _ => true

end Sys2Proof
end

