-- ==== Sys2Proof/Decode.lean ====
section
/-!
DEFINITION. Operation messages and back: spec/30_encoding.md rules R87 to R92.  The decoder is total on
every byte sequence and names why it rejects; every rejection is an IllegalOp of the block (R91).
After it stands the encoder, written from the same formats, and the opcode table's numbering of bits.
-/

namespace Sys2Proof

open Sys2Proof.Machine

/-- Why a message is not one of the eight operations (R91). -/
inductive DecodeError where
  /-- The message is empty. -/
  | emptyMessage
  /-- `OP` is `0x00` or `0x09..0xFF`. -/
  | reservedOp
  /-- The length differs from the total length the format gives. -/
  | wrongLength
  /-- An `F-ENC` message whose ECC operand is neither `0x00` nor `0x01`. -/
  | badEccOperand
  deriving DecidableEq, Repr

/-- The total length of a message that begins with these bytes (R92): 1 for `F-NONE`, 3 for `F-ADDR`,
`9 + M[4]` for `F-ENC`, `3 + BE16(M[1..2])` for `F-BUF`; none for a reserved `OP`.  A sequence too
short to hold its length operand is shorter than every total its format can give. -/
def messageLength (m : List Byte) : Option Nat :=
  match (byteAt m 0).toNat with
  | 1 => some (9 + (byteAt m 4).toNat)
  | 2 => some (3 + (be16At m 1).toNat)
  | 3 => some (3 + (be16At m 1).toNat)
  | 4 => some 1
  | 5 => some 1
  | 6 => some 1
  | 7 => some (3 + (be16At m 1).toNat)
  | 8 => some 3
  | _ => none

/-- The ECC operand of `F-ENC`: `0x00` off, `0x01` on, nothing else (R88, R91). -/
def eccOperand (b : Byte) : Except DecodeError Bool :=
  if b = 0x00 then .ok false else if b = 0x01 then .ok true else .error .badEccOperand

/-- The operands of `F-ENC` (R89): the payload is all that follows byte 8. -/
def decodeFEnc (m : List Byte) : Except DecodeError Instr :=
  match eccOperand (byteAt m 2) with
  | .error e => .error e
  | .ok ecc => .ok (.encode (byteAt m 1) ecc (byteAt m 3) (m.drop 9) (be32At m 5))

/-- The operation of a message whose length is right, by its `OP` (R89, R90). -/
def decodeOperands (m : List Byte) : Except DecodeError Instr :=
  match (byteAt m 0).toNat with
  | 1 => decodeFEnc m
  | 2 => .ok (.decode (m.drop 3))
  | 3 => .ok (.receive (m.drop 3))
  | 4 => .ok .send
  | 5 => .ok .tick
  | 6 => .ok .abort
  | 7 => .ok (.tag (m.drop 3))
  | 8 => .ok (.read (be16At m 1))
  | _ => .error .reservedOp

/-- The operation a message stands for, or why it is illegal (R87 to R92). -/
def decodeMessage (m : List Byte) : Except DecodeError Instr :=
  if m = [] then .error .emptyMessage
  else
    match messageLength m with
    | none => .error .reservedOp
    | some total => if m.length = total then decodeOperands m else .error .wrongLength

/-- The ECC operand byte of `F-ENC` (R88). -/
def eccOperandByte (ecc : Bool) : Byte := if ecc then 0x01 else 0x00

/-- An `F-BUF` message: `OP`, the length `n` in two bytes, the bytes (R88). -/
def encodeFBuf (op : Byte) (input : List Byte) : List Byte :=
  [op] ++ bytes16 (BitVec.ofNat 16 input.length) ++ input

/-- The message of an operation (R88); its length operands hold the lengths of a well-formed one. -/
def encodeMessage : Instr → List Byte
  | .encode origin ecc code payload now =>
    [0x01, origin, eccOperandByte ecc, code, BitVec.ofNat 8 payload.length] ++ bytes32 now ++ payload
  | .decode input => encodeFBuf 0x02 input
  | .receive input => encodeFBuf 0x03 input
  | .send => [0x04]
  | .tick => [0x05]
  | .abort => [0x06]
  | .tag input => encodeFBuf 0x07 input
  | .read addr => [0x08] ++ bytes16 addr

/-- The `n` bytes of a number whose bit 0 is the least significant bit of the first byte: the opcode
table's numbering of bits. -/
def tableBytes : Nat → Nat → List Byte
  | 0, _ => []
  | n + 1, w => BitVec.ofNat 8 w :: tableBytes n (w / 256)

/-- The message whose first `nbits` bits are `w` and whose other bytes, up to the length its format
gives (R92), are zero. -/
def messageOfTableWord (nbits w : Nat) : List Byte :=
  let given := tableBytes (nbits / 8) w
  match messageLength given with
  | none => given
  | some total => given ++ zeros (total - given.length)

/-- The operation the decoder reads from the bits of an opcode-table row. -/
def decodeTableWord (nbits w : Nat) : Option Instr :=
  match decodeMessage (messageOfTableWord nbits w) with
  | .ok i => some i
  | .error _ => none

end Sys2Proof
end

