-- ==== Sys2Proof/Machine/Sha256.lean ====
section
/-!
DEFINITION. SHA-256, HMAC and the truncated tag: spec/42_tag_generator.md rules R161 to R172.
Rules R164 and R166 to R172 are marked there as general knowledge and adopted by decision D2.
-/

namespace Sys2Proof.Machine

/-- `ROTR(x, n)` on a 32-bit word (R10). -/
def rotr (x : Word) (n : Nat) : Word := (x >>> n) ||| (x <<< (32 - n))

/-- `Ch(x, y, z)` (R169). -/
def shaCh (x y z : Word) : Word := (x &&& y) ^^^ (~~~x &&& z)

/-- `Maj(x, y, z)` (R169). -/
def shaMaj (x y z : Word) : Word := (x &&& y) ^^^ (x &&& z) ^^^ (y &&& z)

/-- `S0(x)` (R169). -/
def shaBigSigma0 (x : Word) : Word := rotr x 2 ^^^ rotr x 13 ^^^ rotr x 22

/-- `S1(x)` (R169). -/
def shaBigSigma1 (x : Word) : Word := rotr x 6 ^^^ rotr x 11 ^^^ rotr x 25

/-- `s0(x)` (R169); the last shift is logical. -/
def shaSmallSigma0 (x : Word) : Word := rotr x 7 ^^^ rotr x 18 ^^^ (x >>> 3)

/-- `s1(x)` (R169); the last shift is logical. -/
def shaSmallSigma1 (x : Word) : Word := rotr x 17 ^^^ rotr x 19 ^^^ (x >>> 10)

/-- The round constants `K[0..63]` (R168), eight per row. -/
def shaK : List Word :=
  [0x428a2f98, 0x71374491, 0xb5c0fbcf, 0xe9b5dba5, 0x3956c25b, 0x59f111f1, 0x923f82a4, 0xab1c5ed5] ++
  [0xd807aa98, 0x12835b01, 0x243185be, 0x550c7dc3, 0x72be5d74, 0x80deb1fe, 0x9bdc06a7, 0xc19bf174] ++
  [0xe49b69c1, 0xefbe4786, 0x0fc19dc6, 0x240ca1cc, 0x2de92c6f, 0x4a7484aa, 0x5cb0a9dc, 0x76f988da] ++
  [0x983e5152, 0xa831c66d, 0xb00327c8, 0xbf597fc7, 0xc6e00bf3, 0xd5a79147, 0x06ca6351, 0x14292967] ++
  [0x27b70a85, 0x2e1b2138, 0x4d2c6dfc, 0x53380d13, 0x650a7354, 0x766a0abb, 0x81c2c92e, 0x92722c85] ++
  [0xa2bfe8a1, 0xa81a664b, 0xc24b8b70, 0xc76c51a3, 0xd192e819, 0xd6990624, 0xf40e3585, 0x106aa070] ++
  [0x19a4c116, 0x1e376c08, 0x2748774c, 0x34b0bcb5, 0x391c0cb3, 0x4ed8aa4a, 0x5b9cca4f, 0x682e6ff3] ++
  [0x748f82ee, 0x78a5636f, 0x84c87814, 0x8cc70208, 0x90befffa, 0xa4506ceb, 0xbef9a3f7, 0xc67178f2]

/-- The eight words of a running hash `H[0..7]`, or the working variables `a .. h` of R171. -/
structure ShaState where
  a : Word
  b : Word
  c : Word
  d : Word
  e : Word
  f : Word
  g : Word
  h : Word
  deriving DecidableEq, Repr

/-- The initial hash value `H0..H7` (R167). -/
def shaInit : ShaState :=
  { a := 0x6a09e667, b := 0xbb67ae85, c := 0x3c6ef372, d := 0xa54ff53a,
    e := 0x510e527f, f := 0x9b05688c, g := 0x1f83d9ab, h := 0x5be0cd19 }

/-- The number `z` of zero bytes of the padding: the least `z` with `(L + 1 + z + 8) mod 64 = 0` (R166). -/
def shaPadZeros (len : Nat) : Nat := (64 - (len + 9) % 64) % 64

/-- The padded message `X ++ [0x80] ++ zeros(z) ++ BYTES64(8·L)` (R166). -/
def shaPad (x : List Byte) : List Byte :=
  x ++ [0x80] ++ zeros (shaPadZeros x.length) ++ bytes64 (BitVec.ofNat 64 (8 * x.length))

/-- The words of a block, each four bytes big-endian: `W[0..15]` of R170. -/
def shaWords : List Byte → List Word
  | b0 :: b1 :: b2 :: b3 :: rest => be32 b0 b1 b2 b3 :: shaWords rest
  | _ => []

/-- `n` more words of the message schedule (R170).  The list holds the words so far, the latest
first, so that `W[t-2]`, `W[t-7]`, `W[t-15]` and `W[t-16]` are its entries 1, 6, 14 and 15. -/
def shaExtend : Nat → List Word → List Word
  | 0, w => w
  | n + 1, w =>
    shaExtend n
      ((shaSmallSigma1 (w.getD 1 0) + w.getD 6 0 + shaSmallSigma0 (w.getD 14 0) + w.getD 15 0) :: w)

/-- The message schedule `W[0..63]` of a block (R170). -/
def shaSchedule (block : List Byte) : List Word := (shaExtend 48 (shaWords block).reverse).reverse

/-- One round of R171, with `K[t]` and `W[t]`. -/
def shaRound (s : ShaState) (k w : Word) : ShaState :=
  let t1 := s.h + shaBigSigma1 s.e + shaCh s.e s.f s.g + k + w
  let t2 := shaBigSigma0 s.a + shaMaj s.a s.b s.c
  { a := t1 + t2, b := s.a, c := s.b, d := s.c, e := s.d + t1, f := s.e, g := s.f, h := s.g }

/-- The rounds of R171 over the round constants and the schedule together, in order. -/
def shaRounds : List Word → List Word → ShaState → ShaState
  | k :: ks, w :: ws, s => shaRounds ks ws (shaRound s k w)
  | _, _, s => s

/-- The compression of one block into the running hash (R171). -/
def shaCompress (hash : ShaState) (block : List Byte) : ShaState :=
  let r := shaRounds shaK (shaSchedule block) hash
  { a := hash.a + r.a, b := hash.b + r.b, c := hash.c + r.c, d := hash.d + r.d,
    e := hash.e + r.e, f := hash.f + r.f, g := hash.g + r.g, h := hash.h + r.h }

/-- The first `n` blocks of 64 bytes of a padded message, compressed in order (R172). -/
def shaBlocks : Nat → List Byte → ShaState → ShaState
  | 0, _, hash => hash
  | n + 1, y, hash => shaBlocks n (y.drop 64) (shaCompress hash (y.take 64))

/-- The 32 output bytes of a hash: `BYTES32(H[0]) ++ … ++ BYTES32(H[7])` (R172). -/
def ShaState.bytes (s : ShaState) : List Byte :=
  bytes32 s.a ++ bytes32 s.b ++ bytes32 s.c ++ bytes32 s.d ++
    bytes32 s.e ++ bytes32 s.f ++ bytes32 s.g ++ bytes32 s.h

/-- `SHA256(X)` (R172): all `N` blocks of the padded message.  Irreducible, so that no elaboration runs a
hash by accident; the kernel still can. -/
@[irreducible] def sha256 (x : List Byte) : List Byte :=
  (shaBlocks ((shaPad x).length / 64) (shaPad x) shaInit).bytes

/-- `K0 = K ++ zeros(64 - len(K))` (R164); the block's key always has 4 bytes. -/
def hmacKeyBlock (k : List Byte) : List Byte := k ++ zeros (64 - k.length)

/-- `HMAC(K, M)` for a key of at most 64 bytes (R164). -/
def hmac (k m : List Byte) : List Byte :=
  sha256 ((hmacKeyBlock k).map (· ^^^ 0x5C) ++ sha256 ((hmacKeyBlock k).map (· ^^^ 0x36) ++ m))

/-- `Tag(M) = HMAC(BYTES32(KEY), M)[0..3]` (R14, R161, R162). -/
def tag (key : Word) (m : List Byte) : List Byte := (hmac (bytes32 key) m).take 4

end Sys2Proof.Machine
end

