-- ==== Sys2Proof/Config.lean ====
section
/-!
DEFINITION. The implementation parameters of spec/00_scope.md section 4 (rules R1 to R8, R40, R283).
`HDR_LEN` and the hash are fixed.  The others are the fields of `Config`, an argument of the whole run; the
values the spec leaves OPEN are opaque constants, so nothing can be proved of them.
-/

namespace Sys2Proof

/-- `HDR_LEN`, the length of a frame header (R1). -/
abbrev Config.hdrLen : Nat := 12

/-- The size of `RX_PAYLOAD`: the `payload_length` field is one byte (R35). -/
abbrev Config.rxPayloadSize : Nat := 255

/-- The parameters a run is configured with (R2 to R7, R283).  They are fixed before reset is
released; no operation writes them and READ does not return them (R40). -/
structure Config where
  /-- `KEY`, the 32-bit secret of the tag generator (R3). -/
  key : Word
  /-- `STATIONS`, the registered origin-station codes (R4).  `0x00` is never a member, whatever this
  list holds: `Machine.registered` says so once for every reader. -/
  stations : List Byte
  /-- `TIMEOUT_S`, the reply-timeout threshold in TICKs, `0..254` (R5). -/
  timeoutS : Fin 255
  /-- `ACK_CODE`, the command code of a downlinked ACK (R6). -/
  ackCode : Byte
  /-- `NACK_CODE`, the command code of a downlinked NACK (R6). -/
  nackCode : Byte
  /-- `PING_CODE`, the command code of a downlinked ping reply (R6). -/
  pingCode : Byte
  /-- `MAC_VERIFY`: whether a tag mismatch fails the parse (R7). -/
  macVerify : Bool
  /-- `PAYLOAD_MAX`, the longest payload ENCODE takes, `0..255` (R2). -/
  payloadMax : Fin 256
  deriving DecidableEq, Repr

/-- The number of entries of `TXBUF`, `HDR_LEN + PAYLOAD_MAX` (R22, D28): 110 in this hardware. -/
abbrev Config.txBufSize (c : Config) : Nat := Config.hdrLen + c.payloadMax.val

/-- What `TXLEN` holds for a frame of more than 255 bytes: a FREE VALUE, of which nothing can be proved (DESIGN
CHOICE, log entry 16).  `TXLEN` is u8 (R23), so under a `PAYLOAD_MAX` above 243 the `12 + len` that R115 writes
need not fit in it, and no rule says what it then holds. -/
opaque Config.txLenBeyondByte : List Byte → Byte

/-- OPEN parameter `KEY` (R3). -/
opaque Config.openKey : Word

/-- OPEN parameter `STATIONS` (R4). -/
opaque Config.openStations : List Byte

/-- OPEN parameter `TIMEOUT_S` (R5). -/
opaque Config.openTimeoutS : Fin 255

/-- OPEN parameter `ACK_CODE` (R6). -/
opaque Config.openAckCode : Byte

/-- OPEN parameter `NACK_CODE` (R6). -/
opaque Config.openNackCode : Byte

/-- OPEN parameter `PING_CODE` (R6). -/
opaque Config.openPingCode : Byte

/-- The configuration of this hardware: `MAC_VERIFY = false` (R7), `PAYLOAD_MAX = 98` (R2), every other
parameter OPEN. -/
def Config.hardware : Config :=
  { key := Config.openKey
    stations := Config.openStations
    timeoutS := Config.openTimeoutS
    ackCode := Config.openAckCode
    nackCode := Config.openNackCode
    pingCode := Config.openPingCode
    macVerify := false
    payloadMax := 98 }

end Sys2Proof
end

