-- ==== Sys2Proof/Machine/State.lean ====
section
/-!
DEFINITION. The state of the block as plain data: every register of spec/10_state.md (R22 to R37), the
configuration of the run (R40, R283), the transport's inputs (R38, R39), the operations the host has
issued and the block has not yet taken (R21, R71), and what the block put out in its last step (R12).
-/

namespace Sys2Proof.Machine

/-- `STATUS`, the `CommandStatus` of the most recently sent command (R26).  The reserved value 7 is never
written, so it is no value here. -/
inductive Status where
  /-- 0: no command has been sent since reset. -/
  | none
  /-- 1: sent, outstanding. -/
  | waiting
  /-- 2: resolved by a matching ACK or by a ping reply. -/
  | acked
  /-- 3: resolved by an ACK whose payload is not `[LASTCODE]`. -/
  | invalidAck
  /-- 4: resolved by a NACK. -/
  | nacked
  /-- 5: resolved by a reply of another code. -/
  | unexpectedReply
  /-- 6: resolved by the timeout. -/
  | noReply
  deriving DecidableEq, Repr

/-- `DIAG`, the protocol diagnostic of the last classification (R33). -/
inductive Diag where
  /-- 0: none. -/
  | none
  /-- 1: an ACK whose payload is not one byte. -/
  | malformedAck
  /-- 2: a NACK whose payload is not two bytes. -/
  | malformedNack
  /-- 3: a ping reply whose payload is not twelve bytes. -/
  | malformedPing
  deriving DecidableEq, Repr

/-- The causes an operation can raise (R250, `ERR` 1 to 11).  None of them stops the block (R253): each is
the whole response of an operation that changed nothing. -/
inductive Err where
  /-- 1: ENCODE, `len > PAYLOAD_MAX` (R111). -/
  | payloadTooLong
  /-- 2: ENCODE, `origin` not in `STATIONS` (R112). -/
  | unknownStation
  /-- 3: the parse, `n < 12` (R131). -/
  | tooShort
  /-- 4: the parse, `n < 12 + IN[3]` (R133). -/
  | tooShortForPayload
  /-- 5: the parse, `IN[1]` is neither sentinel (R132). -/
  | invalidEccFlag
  /-- 6: the parse, a tag mismatch with `MAC_VERIFY` (R136). -/
  | invalidMac
  /-- 7: SEND and ABORT, `TXV = 0` (R204, R230). -/
  | queueEmpty
  /-- 8: SEND, `LINK_UP = 0` (R203). -/
  | notConnected
  /-- 9: SEND, `TX_ACCEPT = 0` (R205). -/
  | transmitFailed
  /-- 10: SEND, `WAIT = 1` (R202). -/
  | busy
  /-- 11: a malformed message (R91) or an unmapped READ address (R241). -/
  | illegalOp
  deriving DecidableEq, Repr

/-- What the block can put out besides its response (R12). -/
inductive Event where
  /-- A frame's bytes, in increasing offset order, to the transport (R61, R205). -/
  | txFrame (bytes : List Byte)
  /-- The transmit trigger, after the frame (R205). -/
  | txTrigger
  /-- `Evt`, "status changed": no data, unmaskable, unlatched (R257). -/
  | evt
  deriving DecidableEq, Repr

/-- What the host can do to the block. -/
inductive HostInput where
  /-- Issue an operation message (R87).  `linkUp` and `txAccept` are the transport's levels while the
  operation runs: a draw for each operation (R38, R39). -/
  | op (message : List Byte) (linkUp txAccept : Bool)
  /-- Reset the block, between two operations (R281). -/
  | reset
  deriving DecidableEq, Repr

/-- The registers of the block, R22 to R37. -/
structure Regs where
  /-- `TXBUF`, the held frame: `HDR_LEN + PAYLOAD_MAX` entries, `TXBUF[0..109]` in this hardware (R22).  Its size
  is a parameter of the run (D28), kept by every step (log entry 16). -/
  txBuf : List Byte
  /-- `TXLEN`, the number of valid bytes of `TXBUF` (R23). -/
  txLen : Byte
  /-- `TXV`: `TXBUF` holds a frame not yet sent or aborted (R24). -/
  txV : Bool
  /-- `WAIT`: a sent command is outstanding (R25). -/
  wait : Bool
  /-- `STATUS` (R26). -/
  status : Status
  /-- `ELAPSED`: TICKs taken while waiting since the last SEND (R27). -/
  elapsed : Byte
  /-- `LASTCODE`: the command code of the last frame sent (R28). -/
  lastCode : Byte
  /-- `ACKSRC`: clear when an ACK resolved the command, set when a ping reply did (R29). -/
  ackSrc : Bool
  /-- `NACK_REQ`: the requested code of a NACK (R30). -/
  nackReq : Byte
  /-- `NACK_ERR`: the raw byte of a NACK's signed error code (R30). -/
  nackErr : Byte
  /-- `NACK_V`: the two above hold a NACK's values (R30). -/
  nackV : Bool
  /-- `UNEXP_CODE`: the code of an unexpected reply (R31). -/
  unexpCode : Byte
  /-- `PING_RSSI`: raw bits of a ping reply's first word (R32). -/
  pingRssi : Word
  /-- `PING_SNR`: raw bits of its second word (R32). -/
  pingSnr : Word
  /-- `PING_FSHIFT`: raw bits of its third word (R32). -/
  pingFshift : Word
  /-- `PING_V`: the three above hold a ping reply's values (R32). -/
  pingV : Bool
  /-- `DIAG` (R33). -/
  diag : Diag
  /-- `RX_ORIGIN`: byte 0 of the last accepted frame (R34). -/
  rxOrigin : Byte
  /-- `RX_CODE`: its byte 2 (R34). -/
  rxCode : Byte
  /-- `RX_LEN`: its byte 3 (R34). -/
  rxLen : Byte
  /-- `RX_TS`: its bytes 4..7 (R34). -/
  rxTs : Word
  /-- `RX_MAC`: its bytes 8..11 (R34). -/
  rxMac : Word
  /-- `RX_ECC`: its byte 1 was `0xAA` (R34). -/
  rxEcc : Bool
  /-- `RX_PAYLOAD[0..254]`, its payload, then zeros (R35). -/
  rxPayload : Vector Byte Config.rxPayloadSize
  /-- `RX_V`: a parse has succeeded since reset (R36). -/
  rxV : Bool
  /-- `RX_MACOK`: the last accepted frame's tag was right (R37). -/
  rxMacOk : Bool
  deriving DecidableEq, Repr

/-- The state of the machine: the block's registers, and what it shares with the host. -/
structure State where
  /-- The registers (R22 to R37). -/
  regs : Regs
  /-- The configuration of the run (R40, R283); no step changes it. -/
  config : Config
  /-- `LINK_UP`, the transport's input as the current operation sees it (R38). -/
  linkUp : Bool
  /-- `TX_ACCEPT`, the transport's answer to the current operation's write (R39). -/
  txAccept : Bool
  /-- What the host has issued and the block has not taken, in the host's order (R21, R71). -/
  hostQueue : List HostInput
  /-- The response of the last step: none when it took no operation, else `ERR` and its data (R87). -/
  response : Option (List Byte)
  /-- The events of the last step, in the order they were emitted (R12). -/
  events : List Event
  deriving DecidableEq, Repr

/-- Why the machine would stop with a fault.  It has no constructor: the block has no fatal error, and no
error stops it (R253), so no step of the model faults (safe: there is nothing to raise). -/
inductive Fault where
  deriving DecidableEq, Repr

/-- Why an operation would have no meaning. -/
inductive Refusal where
  /-- Raised by an arm of `exec` whose operation has no meaning yet; safe (the run ends).  Every operation
  has its meaning, so no arm raises it. -/
  | notModelled (mnemonic : String)
  deriving DecidableEq, Repr

/-- Every register at its reset value, under the configuration of the run (R280; spec/10_state.md section 7). -/
def Regs.reset (c : Config) : Regs :=
  { txBuf := List.replicate c.txBufSize 0
    txLen := 0
    txV := false
    wait := false
    status := .none
    elapsed := 0
    lastCode := 0
    ackSrc := false
    nackReq := 0
    nackErr := 0
    nackV := false
    unexpCode := 0
    pingRssi := 0
    pingSnr := 0
    pingFshift := 0
    pingV := false
    diag := .none
    rxOrigin := 0
    rxCode := 0
    rxLen := 0
    rxTs := 0
    rxMac := 0
    rxEcc := false
    rxPayload := Vector.replicate Config.rxPayloadSize 0
    rxV := false
    rxMacOk := false }

/-- The machine right after reset (R280): the registers at their reset values, this hardware's
configuration, nothing issued and nothing put out.  The transport's two inputs are no registers; they are
low until an operation brings its draw (DESIGN CHOICE, log entry 3). -/
def State.reset : State :=
  { regs := Regs.reset Config.hardware
    config := Config.hardware
    linkUp := false
    txAccept := false
    hostQueue := []
    response := Option.none
    events := [] }

end Sys2Proof.Machine
end

