-- ==== Sys2Proof/Machine/Flags.lean ====
section
/-!
DEFINITION. Codes, flags and conditions: the numbers of STATUS, DIAG and ERR (spec/10_state.md R26, R33;
spec/60_exceptions.md R250), the CTRLSTAT word (R41), and every condition an operation tests: the
registered stations (R4), the tag check (R136), the ACK match (R212) and the timeout (R221).
-/

namespace Sys2Proof.Machine

/-- The 3-bit value of `STATUS` (R26). -/
def Status.code : Status → BitVec 3
  | .none => 0
  | .waiting => 1
  | .acked => 2
  | .invalidAck => 3
  | .nacked => 4
  | .unexpectedReply => 5
  | .noReply => 6

/-- A response byte holding the `STATUS` value (R210, R223). -/
def Status.byte (st : Status) : Byte := st.code.setWidth 8

/-- The 2-bit value of `DIAG` (R33). -/
def Diag.code : Diag → BitVec 2
  | .none => 0
  | .malformedAck => 1
  | .malformedNack => 2
  | .malformedPing => 3

/-- The `ERR` byte of a successful operation (R250). -/
def okCode : Byte := 0

/-- The `ERR` byte of a raised error (R250). -/
def Err.code : Err → Byte
  | .payloadTooLong => 1
  | .unknownStation => 2
  | .tooShort => 3
  | .tooShortForPayload => 4
  | .invalidEccFlag => 5
  | .invalidMac => 6
  | .queueEmpty => 7
  | .notConnected => 8
  | .transmitFailed => 9
  | .busy => 10
  | .illegalOp => 11

/-- A response byte holding a flag: `0x01` when it is set (R138, R210). -/
def flagByte (b : Bool) : Byte := if b then 0x01 else 0x00

/-- `CTRLSTAT` (R41, address `0x000`), from the high bits down: reserved, `RX_ECC`, `RX_MACOK`, `RX_V`,
`DIAG`, `PING_V`, `NACK_V`, `ACKSRC`, `TXV`, `WAIT`, `STATUS`. -/
def ctrlStat (r : Regs) : Word :=
  (0 : BitVec 19) ++ bit r.rxEcc ++ bit r.rxMacOk ++ bit r.rxV ++ r.diag.code ++ bit r.pingV ++
    bit r.nackV ++ bit r.ackSrc ++ bit r.txV ++ bit r.wait ++ r.status.code

/-- Whether an origin-station code is in `STATIONS`; `0x00` never is (R4, R112). -/
def registered (c : Config) (origin : Byte) : Bool := origin != 0 && c.stations.contains origin

/-- The tag check of a frame `b` with payload `p`: its bytes 8..11 against the tag recomputed over it with
those bytes zero (R136). -/
def tagMatches (key : Word) (b p : List Byte) : Bool :=
  bytesFrom b 8 4 == tag key (b.take 8 ++ zeros 4 ++ p)

/-- The ACK match: the received payload is exactly `[LASTCODE]` (R212). -/
def ackMatches (r : Regs) : Bool := r.rxLen == 1 && byteAt r.rxPayload.toList 0 == r.lastCode

/-- The timeout condition `ELAPSED > TIMEOUT_S`, strict (R221). -/
def timedOut (c : Config) (elapsed : Byte) : Bool := decide (c.timeoutS.val < elapsed.toNat)

/-- The command states of the source (R200). -/
inductive Lifecycle where
  | idle
  | queued
  | sent
  | acked
  | invalidAck
  | nacked
  | unexpectedReply
  | noReply
  deriving DecidableEq, Repr

/-- The block condition of each command state (R200).  `TXV` and `WAIT` are independent, so a block can be
in `queued` and in another state at once. -/
def Regs.isIn (r : Regs) : Lifecycle → Bool
  | .idle => !r.txV && !r.wait
  | .queued => r.txV
  | .sent => r.wait && r.status == .waiting
  | .acked => !r.wait && r.status == .acked
  | .invalidAck => !r.wait && r.status == .invalidAck
  | .nacked => !r.wait && r.status == .nacked
  | .unexpectedReply => !r.wait && r.status == .unexpectedReply
  | .noReply => !r.wait && r.status == .noReply

/-- `NACK_ERR` as the signed value it stands for (R30, R86). -/
def nackErrValue (r : Regs) : Int := sint8 r.nackErr

end Sys2Proof.Machine
end

