-- ==== Sys2Proof/Machine/Operands.lean ====
section
/-!
DEFINITION. The fields of a wire frame and of the reply payloads: spec/30_encoding.md rules R80 to R86.
-/

namespace Sys2Proof.Machine

/-- The ECC flag byte of a frame: `0xAA` on, `0x55` off (R82). -/
def eccFlagByte (ecc : Bool) : Byte := if ecc then 0xAA else 0x55

/-- The two legal values of the ECC flag byte (R82). -/
def legalEccFlag (b : Byte) : Bool := b == 0xAA || b == 0x55

/-- A frame of the header fields, tag bytes and payload given, laid out as R81 says; its length byte is the
payload's length (R83). -/
def frameBytes (origin : Byte) (ecc : Bool) (code : Byte) (now : Word) (mac payload : List Byte) :
    List Byte :=
  [origin, eccFlagByte ecc, code, BitVec.ofNat 8 payload.length] ++ bytes32 now ++ mac ++ payload

/-- The fields of a received frame (R85), with its bytes 0..11 as received and its tag check. -/
structure Frame where
  header : List Byte
  origin : Byte
  ecc : Bool
  code : Byte
  len : Byte
  ts : Word
  mac : Word
  payload : List Byte
  macOk : Bool
  deriving DecidableEq, Repr

/-- `payload_length` of a frame candidate, `0..255` (R83). -/
def payloadLength (b : List Byte) : Nat := (byteAt b 3).toNat

/-- The payload bytes of a frame candidate, `B[12 .. 11 + payload_len]`; bytes beyond are no part of the
frame (R85, R134). -/
def framePayload (b : List Byte) : List Byte := bytesFrom b Config.hdrLen (payloadLength b)

/-- Field extraction from a frame candidate, under the block's own key (R85, R135, R136). -/
def frameFields (key : Word) (b : List Byte) : Frame :=
  { header := b.take Config.hdrLen
    origin := byteAt b 0
    ecc := byteAt b 1 == 0xAA
    code := byteAt b 2
    len := byteAt b 3
    ts := be32At b 4
    mac := be32At b 8
    payload := framePayload b
    macOk := tagMatches key b (framePayload b) }

/-- Byte `i` of the received payload, as the classifier reads it (R86). -/
def replyByte (r : Regs) (i : Nat) : Byte := byteAt r.rxPayload.toList i

/-- The 32-bit word of the received payload at offset `off`, raw bits (R86). -/
def replyWord (r : Regs) (off : Nat) : Word := be32At r.rxPayload.toList off

end Sys2Proof.Machine
end

