-- ==== Sys2Proof/Machine/Ops.lean ====
section
/-!
DEFINITION. The shared operations: reading and writing a byte buffer (spec/00_scope.md R12), completing an
operation (R12, R250), raising an error (R251: the one operation by which anything fails; there is no
return from it, R259), and what a step does with the host's inputs (R71, R266, R281).
-/

namespace Sys2Proof.Machine

/-- `MemRead(buf, addr, n)` (R12). -/
def memRead (buf : List Byte) (addr n : Nat) : List Byte := bytesFrom buf addr n

/-- `MemWrite(buf, addr, n, v)` with `n = len(v)` (R12); bytes past the end of the buffer have no place in
it. -/
def memWrite (buf : List Byte) (addr : Nat) (v : List Byte) : List Byte :=
  (buf.take addr ++ v).take buf.length ++ buf.drop (addr + v.length)

/-- A buffer holding `v` from offset 0 and zeros from there to its end (R115, R137). -/
def filledBuffer (size : Nat) (v : List Byte) : List Byte := memWrite (zeros size) 0 v

/-- The same for `RX_PAYLOAD`, whose size is no parameter (R35, R137). -/
def filledVector (size : Nat) (v : List Byte) : Vector Byte size :=
  ⟨(filledBuffer size v).toArray, by
    simp only [filledBuffer, memWrite, zeros, List.size_toArray, List.length_append, List.length_take,
      List.length_drop, List.length_replicate]
    omega⟩

/-- Complete an operation: commit the registers, answer `ERR = OK` and the data, emit the events (R12). -/
def State.complete (s : State) (regs : Regs) (data : List Byte) (events : List Event) : State :=
  { s with regs := regs, response := some (okCode :: data), events := events }

/-- Raise an error: no register changes, nothing is emitted, and the response is the single byte `ERR`
(R251). -/
def State.raise (s : State) (e : Err) : State :=
  { s with response := some [e.code], events := [] }

/-- Empty the transmit buffer, as SEND and ABORT do (R206, R230). -/
def Regs.clearTx (c : Config) (r : Regs) : Regs :=
  { r with txBuf := zeros c.txBufSize, txLen := 0, txV := false }

/-- A step that takes no operation: the registers hold (R266), nothing is answered or emitted. -/
def State.idle (s : State) : State := { s with response := none, events := [] }

/-- Take a reset from the host's queue: every register at its reset value, no event (R280, R281). -/
def State.takeReset (s : State) (rest : List HostInput) : State :=
  { s with regs := Regs.reset s.config, hostQueue := rest, response := none, events := [] }

/-- Take an operation from the host's queue, with the transport's levels drawn for it (R38, R39, R71). -/
def State.takeOp (s : State) (linkUp txAccept : Bool) (rest : List HostInput) : State :=
  { s with linkUp := linkUp, txAccept := txAccept, hostQueue := rest }

end Sys2Proof.Machine
end

