-- ==== Sys2Proof/Machine/FrameDecode.lean ====
section
/-!
DEFINITION. DECODE and the parse it shares with RECEIVE: spec/41_frame_decode.md rules R130 to R141.
-/

namespace Sys2Proof.Machine

/-- The checks of the parse, in their order (R131, R132, R133, R136), and the fields of a frame that
passes them (R135).  The length byte is not held against `PAYLOAD_MAX` (R133). -/
def parse (c : Config) (input : List Byte) : Except Err Frame :=
  if input.length < Config.hdrLen then .error .tooShort
  else if legalEccFlag (byteAt input 1) = false then .error .invalidEccFlag
  else if input.length < Config.hdrLen + payloadLength input then .error .tooShortForPayload
  else if c.macVerify = true ∧ (frameFields c.key input).macOk = false then .error .invalidMac
  else .ok (frameFields c.key input)

/-- The registers after a parse commits a frame (R137). -/
def Regs.commitFrame (r : Regs) (f : Frame) : Regs :=
  { r with
    rxOrigin := f.origin
    rxEcc := f.ecc
    rxCode := f.code
    rxLen := f.len
    rxTs := f.ts
    rxMac := f.mac
    rxPayload := filledVector Config.rxPayloadSize f.payload
    rxV := true
    rxMacOk := f.macOk }

/-- The response data of a successful parse: the 12 header bytes as received, the tag check, the payload
(R138). -/
def frameResponse (f : Frame) : List Byte := f.header ++ [flagByte f.macOk] ++ f.payload

/-- DECODE (R130 to R140): the parse and nothing else. -/
def execDecode (input : List Byte) (s : State) : Host.Outcome State Fault Refusal :=
  match parse s.config input with
  | .error e => .next (s.raise e)
  | .ok f => .next (s.complete (s.regs.commitFrame f) (frameResponse f) [])

end Sys2Proof.Machine
end

