-- ==== Sys2Proof/Machine/CommandFsm.lean ====
section
/-!
DEFINITION. The command state machine: SEND, RECEIVE with the reply classifier, TICK and ABORT,
spec/43_command_fsm.md rules R200 to R231.
-/

namespace Sys2Proof.Machine

/-- The registers after a successful SEND (R206): the code is kept, the frame is popped, the timer starts,
and the previous command's results are wiped. -/
def Regs.startCommand (c : Config) (r : Regs) : Regs :=
  { r.clearTx c with
    lastCode := byteAt r.txBuf 2
    wait := true
    status := .waiting
    elapsed := 0
    ackSrc := false
    nackReq := 0
    nackErr := 0
    nackV := false
    unexpCode := 0
    pingRssi := 0
    pingSnr := 0
    pingFshift := 0
    pingV := false
    diag := .none }

/-- The bytes SEND transmits: `TXBUF[0 .. TXLEN-1]` (R205). -/
def heldFrame (r : Regs) : List Byte := memRead r.txBuf 0 r.txLen.toNat

/-- SEND (R201 to R207): Busy, NotConnected, QueueEmpty, TransmitFailed in that order, else the frame,
the trigger and `Evt`. -/
def execSend (s : State) : Host.Outcome State Fault Refusal :=
  if s.regs.wait = true then .next (s.raise .busy)
  else if s.linkUp = false then .next (s.raise .notConnected)
  else if s.regs.txV = false then .next (s.raise .queueEmpty)
  else if s.txAccept = false then .next (s.raise .transmitFailed)
  else
    .next (s.complete (s.regs.startCommand s.config) [(s.regs.startCommand s.config).lastCode]
      [.txFrame (heldFrame s.regs), .txTrigger, .evt])

/-- The ACK detector (R212, R214). -/
def Regs.classifyAck (r : Regs) : Regs :=
  if ackMatches r = true then { r with status := .acked, ackSrc := false, diag := .none }
  else
    { r with
      status := .invalidAck
      diag := if r.rxLen = 1 then .none else .malformedAck }

/-- The NACK detector (R215). -/
def Regs.classifyNack (r : Regs) : Regs :=
  if r.rxLen = 2 then
    { r with
      status := .nacked
      nackReq := replyByte r 0
      nackErr := replyByte r 1
      nackV := true
      diag := .none }
  else { r with status := .nacked, nackReq := 0, nackErr := 0, nackV := false, diag := .malformedNack }

/-- A ping reply (R216). -/
def Regs.classifyPing (r : Regs) : Regs :=
  if r.rxLen = 12 then
    { r with
      status := .acked
      ackSrc := true
      pingRssi := replyWord r 0
      pingSnr := replyWord r 4
      pingFshift := replyWord r 8
      pingV := true
      diag := .none }
  else
    { r with
      status := .acked
      ackSrc := true
      pingRssi := 0
      pingSnr := 0
      pingFshift := 0
      pingV := false
      diag := .malformedPing }

/-- A reply of any other code (R217). -/
def Regs.classifyOther (r : Regs) : Regs :=
  { r with status := .unexpectedReply, unexpCode := r.rxCode, diag := .none }

/-- The reply classifier, over registers that hold the reply: resolution (R213), then the tests in the
source's order, ACK, NACK, ping reply, other (R219). -/
def Regs.classify (c : Config) (r : Regs) : Regs :=
  let r := { r with wait := false }
  if r.rxCode = c.ackCode then r.classifyAck
  else if r.rxCode = c.nackCode then r.classifyNack
  else if r.rxCode = c.pingCode then r.classifyPing
  else r.classifyOther

/-- RECEIVE of a frame that parsed (R210, R211, R213): classified when a command is outstanding. -/
def State.receiveFrame (s : State) (f : Frame) : State :=
  let r := s.regs.commitFrame f
  if s.regs.wait = true then
    s.complete (r.classify s.config)
      (frameResponse f ++ [flagByte true, (r.classify s.config).status.byte]) [.evt]
  else s.complete r (frameResponse f ++ [flagByte false, r.status.byte]) []

/-- RECEIVE (R210 to R219): a candidate that does not parse raises and changes nothing (R218). -/
def execReceive (input : List Byte) (s : State) : Host.Outcome State Fault Refusal :=
  match parse s.config input with
  | .error e => .next (s.raise e)
  | .ok f => .next (s.receiveFrame f)

/-- The registers after a TICK (R220 to R222).  `ELAPSED + 1` is an 8-bit sum; at `ELAPSED = 255` while a
command waits, which R27 rules out, that is a DESIGN CHOICE (log entry 9). -/
def Regs.tick (c : Config) (r : Regs) : Regs :=
  if r.wait = true then
    if timedOut c (r.elapsed + 1) = true then
      { r with elapsed := r.elapsed + 1, status := .noReply, wait := false }
    else { r with elapsed := r.elapsed + 1 }
  else r

/-- TICK (R220 to R224): `Evt` when a command was outstanding; the response is `[STATUS, ELAPSED]`. -/
def execTick (s : State) : Host.Outcome State Fault Refusal :=
  let r := s.regs.tick s.config
  .next (s.complete r [r.status.byte, r.elapsed] (if s.regs.wait = true then [.evt] else []))

/-- ABORT (R230, R231): drop the held frame. -/
def execAbort (s : State) : Host.Outcome State Fault Refusal :=
  if s.regs.txV = false then .next (s.raise .queueEmpty)
  else .next (s.complete (s.regs.clearTx s.config) [] [])

end Sys2Proof.Machine
end

