-- ==== Sys2Proof/Machine/FrameEncode.lean ====
section
/-!
DEFINITION. ENCODE: header assembly and length validation, spec/40_frame_encode.md rules R110 to R118.
-/

namespace Sys2Proof.Machine

/-- The frame ENCODE builds: assembled with a zero tag (R113), the tag computed over the whole of it and
then written into bytes 8..11 (R114). -/
def encodedFrame (key : Word) (origin : Byte) (ecc : Bool) (code : Byte) (payload : List Byte)
    (now : Word) : List Byte :=
  frameBytes origin ecc code now (tag key (frameBytes origin ecc code now (zeros 4) payload)) payload

/-- `TXLEN` of a frame (R115): its length, where that fits the register.  It does under every `PAYLOAD_MAX` up to
243, this hardware's 98 among them; of a longer frame it is a free value (DESIGN CHOICE, log entry 16). -/
def frameLength (frame : List Byte) : Byte :=
  if frame.length < 256 then BitVec.ofNat 8 frame.length else Config.txLenBeyondByte frame

/-- The registers after ENCODE commits a frame (R115). -/
def Regs.holdFrame (c : Config) (r : Regs) (frame : List Byte) : Regs :=
  { r with txBuf := filledBuffer c.txBufSize frame, txLen := frameLength frame, txV := true }

/-- ENCODE (R110 to R117): length validation, station validation, assembly, commit. -/
def execEncode (origin : Byte) (ecc : Bool) (code : Byte) (payload : List Byte) (now : Word)
    (s : State) : Host.Outcome State Fault Refusal :=
  if s.config.payloadMax.val < payload.length then .next (s.raise .payloadTooLong)
  else if registered s.config origin = false then .next (s.raise .unknownStation)
  else
    let frame := encodedFrame s.config.key origin ecc code payload now
    .next (s.complete (s.regs.holdFrame s.config frame) (frameLength frame :: frame) [])

end Sys2Proof.Machine
end

