-- ==== Sys2Proof/Machine/ReadMap.lean ====
section
/-!
DEFINITION. READ and the register map: spec/10_state.md rule R41, spec/43_command_fsm.md rules R240, R241.
-/

namespace Sys2Proof.Machine

/-- The buffer bytes of the map: `TXBUF[i]` at `0x100 + i` for each of its entries, `0x100..0x16D` in this hardware,
and `RX_PAYLOAD[i]` at `0x200 + i` (R41).  Entries 256 and up of a `TXBUF` that another `PAYLOAD_MAX` makes that
long have no address, since R41 gives `0x200` to `RX_PAYLOAD` (DEDUCED, log entry 16). -/
def readBuffers (r : Regs) (a : Nat) : Option Word :=
  if 0x100 ≤ a ∧ a < 0x200 ∧ a < 0x100 + r.txBuf.length then
    some ((byteAt r.txBuf (a - 0x100)).setWidth 32)
  else if 0x200 ≤ a ∧ a ≤ 0x2FE then some ((byteAt r.rxPayload.toList (a - 0x200)).setWidth 32)
  else none

/-- The value the map gives for an address, or none where it gives none (R41). -/
def readMap (r : Regs) (addr : Half) : Option Word :=
  match addr.toNat with
  | 0x000 => some (ctrlStat r)
  | 0x001 => some (r.elapsed.setWidth 32)
  | 0x002 => some (r.lastCode.setWidth 32)
  | 0x003 => some (r.txLen.setWidth 32)
  | 0x004 => some ((0 : BitVec 16) ++ r.nackErr ++ r.nackReq)
  | 0x005 => some (r.unexpCode.setWidth 32)
  | 0x006 => some r.pingRssi
  | 0x007 => some r.pingSnr
  | 0x008 => some r.pingFshift
  | 0x009 => some ((0 : BitVec 8) ++ r.rxLen ++ r.rxCode ++ r.rxOrigin)
  | 0x00A => some r.rxTs
  | 0x00B => some r.rxMac
  | a => readBuffers r a

/-- READ (R240, R241): the word at an address of the map, most significant byte first; IllegalOp for any
other address.  It writes no register and emits nothing. -/
def execRead (addr : Half) (s : State) : Host.Outcome State Fault Refusal :=
  match readMap s.regs addr with
  | none => .next (s.raise .illegalOp)
  | some v => .next (s.complete s.regs (bytes32 v) [])

end Sys2Proof.Machine
end

