-- ==== Sys2Proof/Machine/TagGenerator.lean ====
section
/-!
DEFINITION. TAG: spec/42_tag_generator.md rule R160, over the tag of `Machine/Sha256.lean`.
-/

namespace Sys2Proof.Machine

/-- TAG (R160): the tag of any byte sequence under `KEY`; it writes no register and emits nothing. -/
def execTag (input : List Byte) (s : State) : Host.Outcome State Fault Refusal :=
  .next (s.complete s.regs (tag s.config.key input) [])

end Sys2Proof.Machine
end

