-- ==== Sys2Proof/Machine/Dispatch.lean ====
section
/-!
DEFINITION. The meaning of every operation, one arm each.
-/

namespace Sys2Proof.Machine

def exec (i : Instr) (s : State) : Host.Outcome State Fault Refusal :=
  match i with
  | .encode origin ecc code payload now => Sys2Proof.Machine.execEncode origin ecc code payload now s
  | .decode input => Sys2Proof.Machine.execDecode input s
  | .receive input => Sys2Proof.Machine.execReceive input s
  | .send => Sys2Proof.Machine.execSend s
  | .tick => Sys2Proof.Machine.execTick s
  | .abort => Sys2Proof.Machine.execAbort s
  | .tag input => Sys2Proof.Machine.execTag input s
  | .read addr => Sys2Proof.Machine.execRead addr s

end Sys2Proof.Machine
end

