-- ==== Sys2Proof/Machine/Step.lean ====
section
/-!
DEFINITION. One step: the block takes the next of the host's inputs, in the host's order (spec/10_state.md
R21, spec/20_memory.md R71).  A message that is no operation raises IllegalOp (spec/30_encoding.md R91).
-/

namespace Sys2Proof.Machine

/-- One atomic transition of the block (R13, R71): an operation, a reset between operations (R281), or,
when the host has issued nothing, no change of any register (R266). -/
def step (s : State) : Host.Outcome State Fault Refusal :=
  match s.hostQueue with
  | [] => .next s.idle
  | .reset :: rest => .next (s.takeReset rest)
  | .op message linkUp txAccept :: rest =>
    match decodeMessage message with
    | .ok i => exec i (s.takeOp linkUp txAccept rest)
    | .error _ => .next ((s.takeOp linkUp txAccept rest).raise .illegalOp)

/-- The state in which the host has just issued, ahead of everything else, the message whose bits the
opcode table numbers `w`; the transport's levels stay as they are. -/
def State.withFetchWord (s : State) (nbits w : Nat) : State :=
  { s with hostQueue := .op (messageOfTableWord nbits w) s.linkUp s.txAccept :: s.hostQueue }

end Sys2Proof.Machine
end

