-- ==== Sys2Proof/Machine/Assembler.lean ====
section
/-!
DEFINITION. The textual syntax of operations and the pseudo-operations: spec/30_encoding.md rules R94 and
R95.  It stands beside the block: the host writes lines, the block sees the messages they stand for.
-/

namespace Sys2Proof.Machine

/-- One line of R94, or a pseudo-operation of R95. -/
inductive AsmLine where
  /-- One of the eight operations (R94). -/
  | op (i : Instr)
  /-- `EXECUTE_NEXT` (R95). -/
  | executeNext
  /-- `ABORT_NEXT` (R95). -/
  | abortNext
  /-- `ABORT_LAST` (R95). -/
  | abortLast
  /-- `TICK_N k` (R95). -/
  | tickN (k : Nat)
  /-- `LOOPBACK` (R95). -/
  | loopback
  deriving DecidableEq, Repr

/-- The frame an ENCODE answered: its response is `OK`, `TXLEN`, then the frame (R115).

DESIGN CHOICE (log entry 15): R95 writes `LOOPBACK` out from the last ENCODE's response and does not say what
it stands for when that response is an error or there was no ENCODE.  The model drops two bytes of whatever
response it is given, so of an error's one byte, and of the empty response, nothing is left. -/
def answeredFrame (response : List Byte) : List Byte := response.drop 2

/-- The operations a line stands for (R95); `LOOPBACK` is written out from the last ENCODE's response.  With
no answered frame to write out it is DECODE of the empty list: DESIGN CHOICE, log entry 15 (`answeredFrame`). -/
def AsmLine.operations (lastEncode : List Byte) : AsmLine → List Instr
  | .op i => [i]
  | .executeNext => [.send]
  | .abortNext => [.abort]
  | .abortLast => [.abort]
  | .tickN k => List.replicate k .tick
  | .loopback => [.decode (answeredFrame lastEncode)]

/-- The characters of a line in pieces: words and numbers, and each comma and bracket by itself.  The second
argument is the piece begun so far. -/
def asmPieces : List Char → List Char → List (List Char)
  | [], piece => if piece = [] then [] else [piece]
  | c :: cs, piece =>
    let done := if piece = [] then [] else [piece]
    if c = ' ' then done ++ asmPieces cs []
    else if c = ',' ∨ c = '[' ∨ c = ']' then done ++ [c] :: asmPieces cs []
    else asmPieces cs (piece ++ [c])

/-- The value of a digit below the base. -/
def digitValue (base : Nat) (c : Char) : Option Nat :=
  let n := c.toNat
  let v :=
    if 48 ≤ n ∧ n ≤ 57 then n - 48
    else if 65 ≤ n ∧ n ≤ 70 then n - 55
    else if 97 ≤ n ∧ n ≤ 102 then n - 87
    else base
  if v < base then some v else none

/-- The value of a run of digits, on top of the digits already read. -/
def digitsValue (base : Nat) : List Char → Nat → Option Nat
  | [], v => some v
  | c :: cs, v =>
    match digitValue base c with
    | some d => digitsValue base cs (base * v + d)
    | none => none

/-- A number, decimal or `0x` hex (R94). -/
def asmNumber (cs : List Char) : Option Nat :=
  match cs with
  | [] => none
  | '0' :: 'x' :: ds => if ds = [] then none else digitsValue 16 ds 0
  | ds => digitsValue 10 ds 0

/-- A number that fits a field of `w` bits. -/
def asmField (w : Nat) (cs : List Char) : Option (BitVec w) :=
  match asmNumber cs with
  | some n => if n < 2 ^ w then some (BitVec.ofNat w n) else none
  | none => none

/-- The rest of a byte list after an element, and what follows the list. -/
def asmListTail : List (List Char) → Option (List Byte × List (List Char))
  | [']'] :: rest => some ([], rest)
  | [','] :: e :: rest =>
    match asmField 8 e, asmListTail rest with
    | some b, some (bs, after) => some (b :: bs, after)
    | _, _ => none
  | _ => none

/-- A byte list `[b0, b1, …]` (R94), and what follows it. -/
def asmList : List (List Char) → Option (List Byte × List (List Char))
  | ['['] :: [']'] :: rest => some ([], rest)
  | ['['] :: e :: rest =>
    match asmField 8 e, asmListTail rest with
    | some b, some (bs, after) => some (b :: bs, after)
    | _, _ => none
  | _ => none

/-- The `ecc` operand, `ON` or `OFF` (R94). -/
def asmEcc (cs : List Char) : Option Bool :=
  if cs = ['O', 'N'] then some true else if cs = ['O', 'F', 'F'] then some false else none

/-- The operands of `ENCODE origin, ecc, code, [payload], now` (R94). -/
def asmEncode : List (List Char) → Option Instr
  | o :: [','] :: e :: [','] :: c :: [','] :: list =>
    match asmField 8 o, asmEcc e, asmField 8 c, asmList list with
    | some origin, some ecc, some code, some (payload, [[','], n]) =>
      (asmField 32 n).map (.encode origin ecc code payload)
    | _, _, _, _ => none
  | _ => none

/-- An operand that is a byte list and nothing after it (R94). -/
def asmBuffer (pieces : List (List Char)) : Option (List Byte) :=
  match asmList pieces with
  | some (bytes, []) => some bytes
  | _ => none

/-- A line that stands for an operation a message can carry. -/
def asmOp (i : Option Instr) : Option AsmLine :=
  match i with
  | some i => if i.wellFormed = true then some (.op i) else none
  | none => none

/-- The line a text stands for: a mnemonic in capitals and its operands (R94, R95). -/
def asmLine (text : List Char) : Option AsmLine :=
  match asmPieces text [] with
  | ['E', 'N', 'C', 'O', 'D', 'E'] :: args => asmOp (asmEncode args)
  | ['D', 'E', 'C', 'O', 'D', 'E'] :: args => asmOp ((asmBuffer args).map .decode)
  | ['R', 'E', 'C', 'E', 'I', 'V', 'E'] :: args => asmOp ((asmBuffer args).map .receive)
  | ['T', 'A', 'G'] :: args => asmOp ((asmBuffer args).map .tag)
  | [['S', 'E', 'N', 'D']] => some (.op .send)
  | [['T', 'I', 'C', 'K']] => some (.op .tick)
  | [['A', 'B', 'O', 'R', 'T']] => some (.op .abort)
  | [['R', 'E', 'A', 'D'], a] => asmOp ((asmField 16 a).map .read)
  | [['E', 'X', 'E', 'C', 'U', 'T', 'E', '_', 'N', 'E', 'X', 'T']] => some .executeNext
  | [['A', 'B', 'O', 'R', 'T', '_', 'N', 'E', 'X', 'T']] => some .abortNext
  | [['A', 'B', 'O', 'R', 'T', '_', 'L', 'A', 'S', 'T']] => some .abortLast
  | [['T', 'I', 'C', 'K', '_', 'N'], k] => (asmNumber k).map .tickN
  | [['L', 'O', 'O', 'P', 'B', 'A', 'C', 'K']] => some .loopback
  | _ => none

/-- The messages a text stands for (R88, R94, R95), or none where it is no line. -/
def assemble (lastEncode : List Byte) (text : List Char) : Option (List (List Byte)) :=
  (asmLine text).map fun l => (l.operations lastEncode).map encodeMessage

end Sys2Proof.Machine
end

