-- ==== Sys2Proof/Safety.lean ====
section
/-!
DEFINITION. What claims about runs are stated in: when a frame candidate is acceptable, the conditions the
spec says the registers always meet, and a safe state.
-/

namespace Sys2Proof.Machine

/-- A frame candidate that the parse accepts, in the words of spec/41_frame_decode.md R131, R132, R133 and
R136: long enough for its header and its payload, a legal ECC flag, and, with `MAC_VERIFY`, the right
tag. -/
def Acceptable (c : Config) (b : List Byte) : Prop :=
  12 ≤ b.length ∧
  (byteAt b 1 = 0xAA ∨ byteAt b 1 = 0x55) ∧
  12 + (byteAt b 3).toNat ≤ b.length ∧
  (c.macVerify = true →
    bytesFrom b 8 4 = tag c.key (b.take 8 ++ zeros 4 ++ bytesFrom b 12 (byteAt b 3).toNat))

/-- The number of valid bytes of `TXBUF`: `12 + TXBUF[3]` of a held frame, else none (R23). -/
def Regs.heldLength (r : Regs) : Nat := if r.txV = true then 12 + (byteAt r.txBuf 3).toNat else 0

/-- What the spec says of the registers at all times, under the configuration of the run. -/
structure Regs.Inv (c : Config) (r : Regs) : Prop where
  /-- `WAIT = 1` exactly when `STATUS = WAITING` (R25). -/
  wait_iff : r.wait = true ↔ r.status = .waiting
  /-- `TXBUF` has `HDR_LEN + PAYLOAD_MAX` entries, 110 in this hardware (R22). -/
  tx_size : r.txBuf.length = 12 + c.payloadMax.val
  /-- `TXV = 1`: the held frame fits `TXBUF`, and `TXLEN = 12 + TXBUF[3]` with `12 <= TXLEN <= 110` (R23; 110 is
  `HDR_LEN + PAYLOAD_MAX` of this hardware), where that number fits the byte `TXLEN` (log entry 16). -/
  held_length : r.txV = true →
    (byteAt r.txBuf 3).toNat ≤ c.payloadMax.val ∧
    (12 + (byteAt r.txBuf 3).toNat ≤ 255 →
      r.txLen.toNat = 12 + (byteAt r.txBuf 3).toNat ∧ 12 ≤ r.txLen.toNat ∧
        r.txLen.toNat ≤ 12 + c.payloadMax.val)
  /-- `TXV = 0`: `TXLEN = 0` (R23). -/
  empty_length : r.txV = false → r.txLen = 0
  /-- Bytes of `TXBUF` past the held ones are `0x00` (R22): at and above `TXLEN`, where `TXLEN` counts them. -/
  tx_tail : r.txBuf.drop r.heldLength = zeros (12 + c.payloadMax.val - r.heldLength)
  /-- `ELAPSED` never exceeds `TIMEOUT_S + 1` (R27). -/
  elapsed_le : r.elapsed.toNat ≤ c.timeoutS.val + 1
  /-- While a command waits, its time is not up (R221). -/
  elapsed_waiting : r.wait = true → r.elapsed.toNat ≤ c.timeoutS.val
  /-- After a timeout `ELAPSED` keeps the value `TIMEOUT_S + 1` (R221). -/
  no_reply : r.status = .noReply → r.elapsed.toNat = c.timeoutS.val + 1
  /-- `NACK_V = 1` implies `STATUS = NACKED` (R30). -/
  nack_v : r.nackV = true → r.status = .nacked
  /-- `PING_V = 1` implies `STATUS = ACKED` and `ACKSRC = 1` (R32). -/
  ping_v : r.pingV = true → r.status = .acked ∧ r.ackSrc = true
  /-- Bytes of `RX_PAYLOAD` from `RX_LEN` up are `0x00` (R35). -/
  rx_tail : r.rxPayload.toList.drop r.rxLen.toNat = zeros (255 - r.rxLen.toNat)
  /-- Before the first successful parse the receive registers hold their reset values (R34 to R37). -/
  rx_unset : r.rxV = false →
    r.rxOrigin = 0 ∧ r.rxCode = 0 ∧ r.rxLen = 0 ∧ r.rxTs = 0 ∧ r.rxMac = 0 ∧ r.rxEcc = false ∧
      r.rxMacOk = false

/-- A safe state: its registers are as the spec says they always are. -/
def State.Safe (s : State) : Prop := s.regs.Inv s.config

end Sys2Proof.Machine
end

