-- ==== Sys2Proof/Certificates/Slice0/Obligations.lean ====
section
/-!
DEFINITION. The statements for the provers.  Each docstring names the rules of spec/ it rests on.
-/

open Sys2Proof Sys2Proof.Machine

/-! ### Messages -/

/-- Every well-formed operation is read back from its message (R88 to R92). -/
def Obligations.EncodedOperationDecodesToItself : Prop :=
  ∀ i : Instr, i.wellFormed = true → decodeMessage (encodeMessage i) = .ok i

/-- A message the decoder reads is the one message of a well-formed operation: no two messages stand for
one operation (R88 to R92). -/
def Obligations.DecodedMessageEncodesToItself : Prop :=
  ∀ (m : List Byte) (i : Instr), decodeMessage m = .ok i → i.wellFormed = true ∧ encodeMessage i = m

/-- Messages of spec/95_test_vectors.md, one per operation, decode to the operation written beside them
there. -/
def Obligations.ListedMessagesDecodeToTheirOperations : Prop :=
  decodeMessage [0x01, 0x01, 0x01, 0x40, 0x00, 0x65, 0x53, 0xF1, 0x00] =
      .ok (.encode 0x01 true 0x40 [] 1700000000) ∧
    decodeMessage [0x02, 0x00, 0x03, 0x01, 0x02, 0x03] = .ok (.decode [0x01, 0x02, 0x03]) ∧
    decodeMessage [0x03, 0x00, 0x01, 0xEE] = .ok (.receive [0xEE]) ∧
    decodeMessage [0x04] = .ok .send ∧
    decodeMessage [0x05] = .ok .tick ∧
    decodeMessage [0x06] = .ok .abort ∧
    decodeMessage [0x07, 0x00, 0x01, 0x00] = .ok (.tag [0x00]) ∧
    decodeMessage [0x08, 0x01, 0x6D] = .ok (.read 0x16D)

/-- R91: exactly the messages that are empty, have a reserved `OP`, a wrong length or a bad ECC operand are
no operation, and each of them raises IllegalOp (`ERR = 11`) and changes no register. -/
def Obligations.IllegalMessagesRaiseIllegalOp : Prop :=
  ∀ m : List Byte,
    let op := (byteAt m 0).toNat
    let illegal :=
      m = [] ∨ op = 0 ∨ 9 ≤ op ∨
      (op = 1 ∧ (m.length < 5 ∨ m.length ≠ 9 + (byteAt m 4).toNat)) ∨
      ((op = 2 ∨ op = 3 ∨ op = 7) ∧ (m.length < 3 ∨ m.length ≠ 3 + (be16At m 1).toNat)) ∨
      ((op = 4 ∨ op = 5 ∨ op = 6) ∧ m.length ≠ 1) ∨
      (op = 8 ∧ m.length ≠ 3) ∨
      (op = 1 ∧ byteAt m 2 ≠ 0x00 ∧ byteAt m 2 ≠ 0x01)
    (illegal ↔ ¬∃ i, decodeMessage m = .ok i) ∧
      ∀ (s : State) (linkUp txAccept : Bool) (rest : List HostInput),
        s.hostQueue = .op m linkUp txAccept :: rest → illegal →
          step s = .next { s with
            linkUp := linkUp, txAccept := txAccept, hostQueue := rest
            response := some [0x0B], events := [] }

/-! ### The step -/

/-- The step runs the operation that the next message of the host decodes to, with the transport's levels
drawn for it and the rest of the host's inputs left for later steps (R21, R71). -/
def Obligations.StepRunsTheDecodedOperation : Prop :=
  ∀ (s : State) (m : List Byte) (linkUp txAccept : Bool) (rest : List HostInput) (i : Instr),
    s.hostQueue = .op m linkUp txAccept :: rest → decodeMessage m = .ok i → i.wellFormed = true →
      step s = exec i { s with linkUp := linkUp, txAccept := txAccept, hostQueue := rest }

/-- R266, with the model's choice (log entry 5) that such a step shows an empty output: with nothing issued
by the host, a step changes no register. -/
def Obligations.IdleStepHoldsTheRegisters : Prop :=
  ∀ s : State, s.hostQueue = [] → step s = .next { s with response := none, events := [] }

/-- R280: a reset the host issues puts every register at its reset value, whatever the registers held (a
waiting command is abandoned), and emits no event.  `TXBUF` then holds `zeros(HDR_LEN + PAYLOAD_MAX)`, which is
`zeros(110)` in this hardware (R2, R22), and the registers are those of the machine right after reset. -/
def Obligations.ResetClearsEveryRegister : Prop :=
  State.reset.regs.txBuf = zeros 110 ∧
  ∀ (s : State) (rest : List HostInput), s.hostQueue = .reset :: rest →
    ∃ t, step s = .next t ∧ (s.config.payloadMax.val = 98 → t.regs = State.reset.regs) ∧
      t.events = [] ∧ t.hostQueue = rest ∧ t.config = s.config ∧
      t.regs.txBuf = zeros (12 + s.config.payloadMax.val) ∧ t.regs.txLen = 0 ∧ t.regs.txV = false ∧
      t.regs.wait = false ∧ t.regs.status.code = 0 ∧ t.regs.elapsed = 0 ∧ t.regs.lastCode = 0 ∧
      t.regs.ackSrc = false ∧ t.regs.nackReq = 0 ∧ t.regs.nackErr = 0 ∧ t.regs.nackV = false ∧
      t.regs.unexpCode = 0 ∧ t.regs.pingRssi = 0 ∧ t.regs.pingSnr = 0 ∧ t.regs.pingFshift = 0 ∧
      t.regs.pingV = false ∧ t.regs.diag.code = 0 ∧
      t.regs.rxOrigin = 0 ∧ t.regs.rxCode = 0 ∧ t.regs.rxLen = 0 ∧ t.regs.rxTs = 0 ∧
      t.regs.rxMac = 0 ∧ t.regs.rxEcc = false ∧ t.regs.rxPayload.toList = zeros 255 ∧
      t.regs.rxV = false ∧ t.regs.rxMacOk = false

/-- R281: after a reset a reply to a command sent before it is received and not classified: no command is
outstanding, the status is NONE, and no event is emitted. -/
def Obligations.ReplyAfterResetIsNotClassified : Prop :=
  ∀ (s : State) (b : List Byte) (linkUp txAccept : Bool) (rest : List HostInput),
    b.length ≤ 65535 → Acceptable s.config b →
    s.hostQueue = .reset :: .op (encodeMessage (.receive b)) linkUp txAccept :: rest →
      ∃ t, Sys2Proof.core.run 2 s = .next t ∧ t.hostQueue = rest ∧ t.events = [] ∧
        t.regs.wait = false ∧ t.regs.status = .none ∧ t.regs.rxV = true ∧ t.regs.rxCode = byteAt b 2

/-- No step stops the machine (R253: there is no fatal error). -/
def Obligations.EveryStepAnswersANextState : Prop :=
  ∀ s : State, ∃ t, step s = .next t

/-! ### Pseudo-operations -/

/-- R95: the pseudo-operations stand for exactly the operations they are aliases of; `LOOPBACK`, written out
from the response of an ENCODE that succeeded, is DECODE of the bytes `TXBUF[0 .. TXLEN-1]`, which are the `12 +
len` bytes of the frame.  Where a `PAYLOAD_MAX` above 243 lets a frame be longer than `TXLEN` can count (log
entry 16), it is DECODE of the frame still, by the model's choice. -/
def Obligations.PseudoOperationsAreAliases : Prop :=
  (∀ last : List Byte, AsmLine.executeNext.operations last = [.send] ∧
    AsmLine.abortNext.operations last = [.abort] ∧ AsmLine.abortLast.operations last = [.abort] ∧
    ∀ k, ((AsmLine.tickN k).operations last).length = k ∧
      ∀ i ∈ (AsmLine.tickN k).operations last, i = .tick) ∧
  ∀ (s t : State) (origin : Byte) (ecc : Bool) (code : Byte) (payload : List Byte) (now : Word)
    (data : List Byte),
    exec (.encode origin ecc code payload now) s = .next t → t.response = some (0x00 :: data) →
      AsmLine.loopback.operations (0x00 :: data) = [.decode (t.regs.txBuf.take (12 + payload.length))] ∧
      (12 + payload.length ≤ 255 →
        AsmLine.loopback.operations (0x00 :: data) = [.decode (t.regs.txBuf.take t.regs.txLen.toNat)])

/-! ### ENCODE -/

/-- R113, R114, R115: ENCODE of a payload of at most `PAYLOAD_MAX` bytes for a registered station assembles the
frame with a zero tag, computes the tag over it, writes it in, holds the frame with zeros behind it, answers
`TXLEN` and its bytes, and changes no other register.  `TXLEN` is the frame's length whenever a byte can hold
that, as it can under every `PAYLOAD_MAX` up to 243; of a longer frame nothing is said of it (log entry 16). -/
def Obligations.EncodeHoldsTheTaggedFrame : Prop :=
  ∀ (s : State) (origin : Byte) (ecc : Bool) (code : Byte) (payload : List Byte) (now : Word),
    payload.length ≤ s.config.payloadMax.val → origin ≠ 0x00 → origin ∈ s.config.stations →
      let header := [origin, if ecc then 0xAA else 0x55, code, BitVec.ofNat 8 payload.length] ++ bytes32 now
      let mac := tag s.config.key (header ++ [0x00, 0x00, 0x00, 0x00] ++ payload)
      let frame := header ++ mac ++ payload
      ∃ txLen : Byte, (12 + payload.length ≤ 255 → txLen.toNat = 12 + payload.length) ∧
        exec (.encode origin ecc code payload now) s = .next { s with
          regs := { s.regs with
            txBuf := frame ++ zeros (s.config.payloadMax.val - payload.length), txLen := txLen, txV := true }
          response := some (0x00 :: txLen :: frame), events := [] }

/-- R111, R112: a payload over `PAYLOAD_MAX` bytes raises PayloadTooLong whatever the station is; otherwise a station
that is not registered, `0x00` always among them, raises UnknownStation.  Nothing is written. -/
def Obligations.EncodeRefusesLongPayloadsAndUnknownStations : Prop :=
  ∀ (s : State) (origin : Byte) (ecc : Bool) (code : Byte) (payload : List Byte) (now : Word),
    (s.config.payloadMax.val < payload.length →
      exec (.encode origin ecc code payload now) s =
        .next { s with response := some [0x01], events := [] }) ∧
    (payload.length ≤ s.config.payloadMax.val → origin = 0x00 ∨ origin ∉ s.config.stations →
      exec (.encode origin ecc code payload now) s =
        .next { s with response := some [0x02], events := [] })

/-! ### The parse, DECODE -/

/-- R131, R132, R218 and the orders of R252: DECODE and RECEIVE of a candidate that fails a check answer the
first failing check's error and change no register. -/
def Obligations.FailedParseLeavesNoTrace : Prop :=
  ∀ (s : State) (b : List Byte) (i : Instr), i = .decode b ∨ i = .receive b →
    let flagLegal := byteAt b 1 = 0xAA ∨ byteAt b 1 = 0x55
    let payload := bytesFrom b 12 (byteAt b 3).toNat
    (b.length < 12 → exec i s = .next { s with response := some [0x03], events := [] }) ∧
    (12 ≤ b.length → ¬flagLegal →
      exec i s = .next { s with response := some [0x05], events := [] }) ∧
    (12 ≤ b.length → flagLegal → b.length < 12 + (byteAt b 3).toNat →
      exec i s = .next { s with response := some [0x04], events := [] }) ∧
    (12 + (byteAt b 3).toNat ≤ b.length → flagLegal → s.config.macVerify = true →
      bytesFrom b 8 4 ≠ tag s.config.key (b.take 8 ++ zeros 4 ++ payload) →
      exec i s = .next { s with response := some [0x06], events := [] })

/-- R137, R138, R139: DECODE of an acceptable candidate (any `payload_length` 0 to 255, any origin, trailing
bytes ignored) commits its fields to the receive registers, answers the header as received, the tag check
and the payload, and changes no other register; of any other candidate it answers a single byte and
changes no register. -/
def Obligations.DecodeCommitsTheFrame : Prop :=
  ∀ (s : State) (b : List Byte),
    let payload := bytesFrom b 12 (byteAt b 3).toNat
    let macOk := decide (bytesFrom b 8 4 = tag s.config.key (b.take 8 ++ zeros 4 ++ payload))
    (Acceptable s.config b → ∃ rxPayload : Vector Byte 255,
      rxPayload.toList = payload ++ zeros (255 - (byteAt b 3).toNat) ∧
      exec (.decode b) s = .next { s with
        regs := { s.regs with
          rxOrigin := byteAt b 0, rxEcc := decide (byteAt b 1 = 0xAA), rxCode := byteAt b 2
          rxLen := byteAt b 3, rxTs := be32At b 4, rxMac := be32At b 8, rxPayload := rxPayload
          rxV := true, rxMacOk := macOk }
        response := some (0x00 :: ([byteAt b 0, byteAt b 1, byteAt b 2, byteAt b 3] ++
          bytes32 (be32At b 4) ++ bytes32 (be32At b 8) ++ [if macOk then 0x01 else 0x00] ++ payload))
        events := [] }) ∧
    (¬Acceptable s.config b → ∃ err : Byte, err ≠ 0x00 ∧
      exec (.decode b) s = .next { s with response := some [err], events := [] })

/-- The parse succeeds exactly on the acceptable candidates (R131, R132, R133, R136). -/
def Obligations.ParseSucceedsExactlyOnAcceptable : Prop :=
  ∀ (c : Config) (b : List Byte), (∃ f, parse c b = .ok f) ↔ Acceptable c b

/-- R134: bytes past the frame change nothing of what DECODE does with an acceptable candidate. -/
def Obligations.TrailingBytesAreIgnored : Prop :=
  ∀ (s : State) (b extra : List Byte), Acceptable s.config b →
    exec (.decode (b ++ extra)) s = exec (.decode b) s

/-- R142: a frame that ENCODE builds is accepted by DECODE in every state of the same configuration,
`MAC_VERIFY` included, and every field comes back, whatever `PAYLOAD_MAX` the frame was built under. -/
def Obligations.DecodeReturnsWhatEncodeBuilt : Prop :=
  ∀ (s s' : State) (origin : Byte) (ecc : Bool) (code : Byte) (payload : List Byte) (now : Word),
    payload.length ≤ s.config.payloadMax.val → origin ≠ 0x00 → origin ∈ s.config.stations → s'.config = s.config →
      ∃ t frame u,
        exec (.encode origin ecc code payload now) s = .next t ∧
        frame = t.regs.txBuf.take (12 + payload.length) ∧ frame.length = 12 + payload.length ∧
        t.response = some (0x00 :: t.regs.txLen :: frame) ∧
        exec (.decode frame) s' = .next u ∧
        u.regs.rxOrigin = origin ∧ u.regs.rxEcc = ecc ∧ u.regs.rxCode = code ∧
        u.regs.rxLen.toNat = payload.length ∧ u.regs.rxTs = now ∧ u.regs.rxMac = be32At frame 8 ∧
        u.regs.rxPayload.toList.take payload.length = payload ∧ u.regs.rxMacOk = true ∧
        u.regs.rxV = true

/-! ### The tag generator -/

/-- R160: TAG of any bytes answers the first four bytes of the HMAC under the key's four bytes, writes no
register and emits nothing. -/
def Obligations.TagAnswersTheTruncatedHmac : Prop :=
  ∀ (s : State) (b : List Byte),
    exec (.tag b) s = .next { s with
      response := some (0x00 :: (hmac (bytes32 s.config.key) b).take 4), events := [] }

/-- A hash has 32 bytes, so a tag has 4 (R161, R172). -/
def Obligations.TagsHaveFourBytes : Prop :=
  (∀ b : List Byte, (sha256 b).length = 32) ∧ ∀ (key : Word) (b : List Byte), (tag key b).length = 4

/-- R166: the padding of a message, with the least number of zero bytes that fills a block. -/
def Obligations.PaddingFillsBlocksWithLeastZeros : Prop :=
  ∀ x : List Byte, ∃ z,
    shaPad x = x ++ [0x80] ++ zeros z ++ bytes64 (BitVec.ofNat 64 (8 * x.length)) ∧
    (x.length + 1 + z + 8) % 64 = 0 ∧
    (∀ z', (x.length + 1 + z' + 8) % 64 = 0 → z ≤ z') ∧
    (shaPad x).length % 64 = 0

/-- The numbers of SHA-256 blocks of R165: the inner message of a tag over `m`, and the outer message. -/
def Obligations.HmacBlockCounts : Prop :=
  ∀ (key : Word) (m : List Byte),
    (shaPad ((hmacKeyBlock (bytes32 key)).map (· ^^^ 0x36) ++ m)).length = 64 * ((64 + m.length + 8) / 64 + 1) ∧
    (shaPad ((hmacKeyBlock (bytes32 key)).map (· ^^^ 0x5C) ++
      sha256 ((hmacKeyBlock (bytes32 key)).map (· ^^^ 0x36) ++ m))).length = 64 * 2

/-- R170: the message schedule of a block, word by word. -/
def Obligations.MessageScheduleRecurrence : Prop :=
  ∀ block : List Byte, block.length = 64 →
    let w := fun t => (shaSchedule block).getD t 0
    (shaSchedule block).length = 64 ∧
    (∀ t, t < 16 → w t = be32 (byteAt block (4 * t)) (byteAt block (4 * t + 1))
      (byteAt block (4 * t + 2)) (byteAt block (4 * t + 3))) ∧
    (∀ t, 16 ≤ t → t < 64 →
      w t = shaSmallSigma1 (w (t - 2)) + w (t - 7) + shaSmallSigma0 (w (t - 15)) + w (t - 16))

/-! ### SEND -/

/-- R206, with the transmission of R205: SEND of a held frame over an open link that takes it emits the
frame's bytes, the trigger and `Evt`, keeps the frame's command code, empties the buffer, starts the
timer at 0, clears the previous command's results, answers the code, and changes no receive register.  The
emptied buffer is `zeros(HDR_LEN + PAYLOAD_MAX)`, `zeros(110)` in this hardware (R22). -/
def Obligations.SendTransmitsAndStartsTheTimer : Prop :=
  ∀ s : State, s.regs.wait = false → s.linkUp = true → s.regs.txV = true → s.txAccept = true →
      exec .send s = .next { s with
        regs := { s.regs with
          lastCode := byteAt s.regs.txBuf 2
          txBuf := zeros (12 + s.config.payloadMax.val), txLen := 0, txV := false
          wait := true, status := .waiting, elapsed := 0
          ackSrc := false, nackReq := 0, nackErr := 0, nackV := false
          unexpCode := 0, pingRssi := 0, pingSnr := 0, pingFshift := 0, pingV := false
          diag := .none }
        response := some [0x00, byteAt s.regs.txBuf 2]
        events := [.txFrame (s.regs.txBuf.take s.regs.txLen.toNat), .txTrigger, .evt] }

/-- R202, R203, R204 and the refused write of R205: SEND reports Busy, NotConnected, QueueEmpty and
TransmitFailed in that order, and changes nothing. -/
def Obligations.SendRefusalsInOrder : Prop :=
  ∀ s : State,
    (s.regs.wait = true → exec .send s = .next { s with response := some [0x0A], events := [] }) ∧
    (s.regs.wait = false → s.linkUp = false →
      exec .send s = .next { s with response := some [0x08], events := [] }) ∧
    (s.regs.wait = false → s.linkUp = true → s.regs.txV = false →
      exec .send s = .next { s with response := some [0x07], events := [] }) ∧
    (s.regs.wait = false → s.linkUp = true → s.regs.txV = true → s.txAccept = false →
      exec .send s = .next { s with response := some [0x09], events := [] })

/-- A frame written by ENCODE is what the next SEND transmits, and its command code is what the ACK detector
then compares with (R75, R205, R206).  SEND transmits `TXBUF[0 .. TXLEN-1]`: the whole frame whenever `TXLEN` can
count its bytes, as under every `PAYLOAD_MAX` up to 243 (log entry 16). -/
def Obligations.SendTransmitsTheEncodedFrame : Prop :=
  ∀ (s : State) (origin : Byte) (ecc : Bool) (code : Byte) (payload : List Byte) (now : Word),
    payload.length ≤ s.config.payloadMax.val → origin ≠ 0x00 → origin ∈ s.config.stations →
    s.regs.wait = false → s.linkUp = true → s.txAccept = true →
      ∃ t frame bytes u,
        exec (.encode origin ecc code payload now) s = .next t ∧
        t.response = some (0x00 :: t.regs.txLen :: frame) ∧ frame.length = 12 + payload.length ∧
        exec .send t = .next u ∧ u.events = [.txFrame bytes, .txTrigger, .evt] ∧
        bytes = t.regs.txBuf.take t.regs.txLen.toNat ∧
        (12 + payload.length ≤ 255 → t.regs.txLen.toNat = 12 + payload.length ∧ bytes = frame) ∧
        u.regs.lastCode = code ∧
        u.regs.txV = false ∧ u.regs.wait = true

/-! ### RECEIVE and the reply classifier -/

/-- R211: with no command outstanding RECEIVE of an acceptable candidate writes the receive registers as
DECODE does and nothing else, answers `classified = 0`, and emits nothing. -/
def Obligations.ReceiveWithoutCommandOnlyReceives : Prop :=
  ∀ (s : State) (b : List Byte), Acceptable s.config b → s.regs.wait = false →
    ∃ t data, exec (.decode b) s = .next t ∧ t.response = some (0x00 :: data) ∧
      exec (.receive b) s = .next { t with
        response := some (0x00 :: (data ++ [0x00, s.regs.status.byte])), events := [] }

/-- R212: while a command waits, an ACK whose payload is exactly its code resolves it as ACKED by an ACK;
`WAIT` is cleared, `Evt` emitted and `ELAPSED` kept (R213). -/
def Obligations.MatchingAckResolvesTheCommand : Prop :=
  ∀ (s : State) (b : List Byte), Acceptable s.config b → s.regs.wait = true →
    byteAt b 2 = s.config.ackCode → byteAt b 3 = 1 → byteAt b 12 = s.regs.lastCode →
    ∃ t data, exec (.decode b) s = .next t ∧ t.response = some (0x00 :: data) ∧
      exec (.receive b) s = .next { t with
        regs := { t.regs with wait := false, status := .acked, ackSrc := false, diag := .none }
        response := some (0x00 :: (data ++ [0x01, 0x02])), events := [.evt] }

/-- R214: an ACK of another payload resolves the command as INVALID_ACK, with MalformedAck exactly when its
payload is not one byte. -/
def Obligations.OtherAckIsInvalid : Prop :=
  ∀ (s : State) (b : List Byte), Acceptable s.config b → s.regs.wait = true →
    byteAt b 2 = s.config.ackCode → byteAt b 3 ≠ 1 ∨ byteAt b 12 ≠ s.regs.lastCode →
    ∃ t data, exec (.decode b) s = .next t ∧ t.response = some (0x00 :: data) ∧
      exec (.receive b) s = .next { t with
        regs := { t.regs with
          wait := false, status := .invalidAck
          diag := if byteAt b 3 ≠ 1 then .malformedAck else .none }
        response := some (0x00 :: (data ++ [0x01, 0x03])), events := [.evt] }

/-- R215: a NACK of two bytes resolves the command with its requested code and signed error code, whatever
code was requested; a NACK of another length with none and MalformedNack. -/
def Obligations.NackResolvesTheCommand : Prop :=
  ∀ (s : State) (b : List Byte), Acceptable s.config b → s.regs.wait = true →
    byteAt b 2 = s.config.nackCode → byteAt b 2 ≠ s.config.ackCode →
    ∃ t data u, exec (.decode b) s = .next t ∧ t.response = some (0x00 :: data) ∧
      exec (.receive b) s = .next u ∧
      (byteAt b 3 = 2 → u = { t with
        regs := { t.regs with
          wait := false, status := .nacked, nackReq := byteAt b 12, nackErr := byteAt b 13
          nackV := true, diag := .none }
        response := some (0x00 :: (data ++ [0x01, 0x04])), events := [.evt] } ∧
        nackErrValue u.regs = (byteAt b 13).toInt) ∧
      (byteAt b 3 ≠ 2 → u = { t with
        regs := { t.regs with
          wait := false, status := .nacked, nackReq := 0, nackErr := 0
          nackV := false, diag := .malformedNack }
        response := some (0x00 :: (data ++ [0x01, 0x04])), events := [.evt] })

/-- R216: a ping reply of twelve bytes resolves the command as ACKED with its three words, raw and
big-endian; of another length with zeros and MalformedPing. -/
def Obligations.PingReplyResolvesTheCommand : Prop :=
  ∀ (s : State) (b : List Byte), Acceptable s.config b → s.regs.wait = true →
    byteAt b 2 = s.config.pingCode → byteAt b 2 ≠ s.config.ackCode → byteAt b 2 ≠ s.config.nackCode →
    ∃ t data u, exec (.decode b) s = .next t ∧ t.response = some (0x00 :: data) ∧
      exec (.receive b) s = .next u ∧
      (byteAt b 3 = 12 → u = { t with
        regs := { t.regs with
          wait := false, status := .acked, ackSrc := true
          pingRssi := be32At b 12, pingSnr := be32At b 16, pingFshift := be32At b 20
          pingV := true, diag := .none }
        response := some (0x00 :: (data ++ [0x01, 0x02])), events := [.evt] }) ∧
      (byteAt b 3 ≠ 12 → u = { t with
        regs := { t.regs with
          wait := false, status := .acked, ackSrc := true
          pingRssi := 0, pingSnr := 0, pingFshift := 0
          pingV := false, diag := .malformedPing }
        response := some (0x00 :: (data ++ [0x01, 0x02])), events := [.evt] })

/-- R217: a reply of any other code resolves the command as UNEXPECTED_REPLY and keeps the code. -/
def Obligations.OtherReplyIsUnexpected : Prop :=
  ∀ (s : State) (b : List Byte), Acceptable s.config b → s.regs.wait = true →
    byteAt b 2 ≠ s.config.ackCode → byteAt b 2 ≠ s.config.nackCode → byteAt b 2 ≠ s.config.pingCode →
    ∃ t data, exec (.decode b) s = .next t ∧ t.response = some (0x00 :: data) ∧
      exec (.receive b) s = .next { t with
        regs := { t.regs with
          wait := false, status := .unexpectedReply, unexpCode := byteAt b 2, diag := .none }
        response := some (0x00 :: (data ++ [0x01, 0x05])), events := [.evt] }

/-! ### TICK -/

/-- R220, R221: a TICK while a command waits adds 1 to `ELAPSED` and emits `Evt`; when `ELAPSED` then exceeds
`TIMEOUT_S`, it also sets NO_REPLY and clears `WAIT`.  The sum is of 8 bits: that with `ELAPSED = 255` while a
command waits, a state R27 rules out, `ELAPSED` becomes 0 and no timeout fires is the model's choice (log
entry 9). -/
def Obligations.TickCountsAndTimesOut : Prop :=
  ∀ s : State, s.regs.wait = true →
    (s.config.timeoutS.val < (s.regs.elapsed + 1).toNat →
      exec .tick s = .next { s with
        regs := { s.regs with elapsed := s.regs.elapsed + 1, status := .noReply, wait := false }
        response := some [0x00, 0x06, s.regs.elapsed + 1], events := [.evt] }) ∧
    ((s.regs.elapsed + 1).toNat ≤ s.config.timeoutS.val →
      exec .tick s = .next { s with
        regs := { s.regs with elapsed := s.regs.elapsed + 1 }
        response := some [0x00, s.regs.status.byte, s.regs.elapsed + 1], events := [.evt] })

/-- R222: a TICK with no command outstanding changes no register and emits nothing; it still answers
`STATUS` and `ELAPSED` (R223). -/
def Obligations.TickWithoutCommandChangesNothing : Prop :=
  ∀ s : State, s.regs.wait = false →
    exec .tick s = .next { s with
      response := some [0x00, s.regs.status.code.setWidth 8, s.regs.elapsed], events := [] }

/-- The timeout fires on the `(TIMEOUT_S + 1)`-th TICK after a SEND and not before (R221, R225): `k` TICKs
after a command started to wait, it waits still when `k` is at most `TIMEOUT_S`, and is NO_REPLY with
`ELAPSED = TIMEOUT_S + 1` when `k` is more. -/
def Obligations.TimeoutFiresOnItsTick : Prop :=
  ∀ (k : Nat) (s : State) (linkUp txAccept : Bool),
    s.regs.wait = true → s.regs.status = .waiting → s.regs.elapsed = 0 →
    s.hostQueue = List.replicate k (.op [0x05] linkUp txAccept) →
    ∃ t, Sys2Proof.core.run k s = .next t ∧
      (k ≤ s.config.timeoutS.val → t.regs = { s.regs with elapsed := BitVec.ofNat 8 k }) ∧
      (s.config.timeoutS.val < k → t.regs = { s.regs with
        elapsed := BitVec.ofNat 8 (s.config.timeoutS.val + 1), status := .noReply, wait := false })

/-- A matching ACK and the TICK that would time its command out, in the two orders: whichever comes first
resolves the command, and both outcomes are possible (R72, R225). -/
def Obligations.FirstOfReplyAndTimeoutWins : Prop :=
  ∀ (s : State) (b : List Byte), Acceptable s.config b → s.regs.wait = true →
    s.regs.elapsed.toNat = s.config.timeoutS.val →
    byteAt b 2 = s.config.ackCode → byteAt b 3 = 1 → byteAt b 12 = s.regs.lastCode →
    (∃ t u, exec (.receive b) s = .next t ∧ exec .tick t = .next u ∧
      u.regs.status = .acked ∧ u.regs.wait = false ∧ u.regs.elapsed = s.regs.elapsed ∧ u.events = []) ∧
    (∃ t u, exec .tick s = .next t ∧ exec (.receive b) t = .next u ∧
      u.regs.status = .noReply ∧ u.regs.wait = false ∧ u.regs.elapsed = s.regs.elapsed + 1 ∧
      u.events = [] ∧ u.regs.rxV = true)

/-! ### ABORT -/

/-- R230: ABORT empties the transmit buffer and nothing else, whether or not a command waits; with nothing
held it raises QueueEmpty and changes nothing.  The emptied buffer is `zeros(HDR_LEN + PAYLOAD_MAX)`, `zeros(110)`
in this hardware (R22). -/
def Obligations.AbortDropsOnlyTheHeldFrame : Prop :=
  ∀ s : State,
    (s.regs.txV = true →
      exec .abort s = .next { s with
        regs := { s.regs with txBuf := zeros (12 + s.config.payloadMax.val), txLen := 0, txV := false }
        response := some [0x00], events := [] }) ∧
    (s.regs.txV = false → exec .abort s = .next { s with response := some [0x07], events := [] })

/-! ### READ -/

/-- R240: READ of an address of the map answers its word, most significant byte first, writes nothing and
emits nothing. -/
def Obligations.ReadAnswersTheMappedWord : Prop :=
  ∀ (s : State) (addr : Half) (v : Word), readMap s.regs addr = some v →
    exec (.read addr) s = .next { s with response := some (0x00 :: bytes32 v), events := [] }

/-- R41: the register map, every address: the fields of CTRLSTAT at their bits and its reserved bits 0, the
named registers, and the bytes of the two buffers.  The clauses about `TXBUF`'s addresses are for its 110 entries
of this hardware (R22); `TransmitBufferIsMappedByItsSize` says it for any number of entries. -/
def Obligations.RegisterMapIsAsListed : Prop :=
  ∀ r : Regs,
    (∃ v, readMap r 0x000 = some v ∧
      v.extractLsb' 0 3 = r.status.code ∧ v.getLsbD 3 = r.wait ∧ v.getLsbD 4 = r.txV ∧
      v.getLsbD 5 = r.ackSrc ∧ v.getLsbD 6 = r.nackV ∧ v.getLsbD 7 = r.pingV ∧
      v.extractLsb' 8 2 = r.diag.code ∧ v.getLsbD 10 = r.rxV ∧ v.getLsbD 11 = r.rxMacOk ∧
      v.getLsbD 12 = r.rxEcc ∧ v.extractLsb' 13 19 = 0) ∧
    readMap r 0x001 = some (r.elapsed.setWidth 32) ∧
    readMap r 0x002 = some (r.lastCode.setWidth 32) ∧
    readMap r 0x003 = some (r.txLen.setWidth 32) ∧
    (∃ v, readMap r 0x004 = some v ∧ v.extractLsb' 0 8 = r.nackReq ∧ v.extractLsb' 8 8 = r.nackErr ∧
      v.extractLsb' 16 16 = 0) ∧
    readMap r 0x005 = some (r.unexpCode.setWidth 32) ∧
    readMap r 0x006 = some r.pingRssi ∧ readMap r 0x007 = some r.pingSnr ∧
    readMap r 0x008 = some r.pingFshift ∧
    (∃ v, readMap r 0x009 = some v ∧ v.extractLsb' 0 8 = r.rxOrigin ∧ v.extractLsb' 8 8 = r.rxCode ∧
      v.extractLsb' 16 8 = r.rxLen ∧ v.extractLsb' 24 8 = 0) ∧
    readMap r 0x00A = some r.rxTs ∧ readMap r 0x00B = some r.rxMac ∧
    (r.txBuf.length = 110 → ∀ i, i < 110 →
      readMap r (BitVec.ofNat 16 (0x100 + i)) = some ((byteAt r.txBuf i).setWidth 32)) ∧
    (∀ i, (h : i < 255) → readMap r (BitVec.ofNat 16 (0x200 + i)) = some ((r.rxPayload[i]'h).setWidth 32)) ∧
    (∀ addr : Half, 0x00B < addr.toNat → addr.toNat < 0x100 ∨
      (r.txBuf.length = 110 ∧ 0x16D < addr.toNat ∧ addr.toNat < 0x200) ∨ 0x2FE < addr.toNat →
      readMap r addr = none)

/-- R41 for a `TXBUF` of any number of entries, as another `PAYLOAD_MAX` gives it (D28): `0x100 + i` is entry `i`, and
an address from the end of the entries up to `0x1FF` is unmapped.  That the map follows the size, and that entries
256 and up have no address, is the model's inference (log entry 16). -/
def Obligations.TransmitBufferIsMappedByItsSize : Prop :=
  ∀ r : Regs,
    (∀ i, i < r.txBuf.length → i < 256 →
      readMap r (BitVec.ofNat 16 (0x100 + i)) = some ((byteAt r.txBuf i).setWidth 32)) ∧
    ∀ addr : Half, 0x100 + r.txBuf.length ≤ addr.toNat → addr.toNat < 0x200 → readMap r addr = none

/-- R241: READ of an address outside the map raises IllegalOp and changes nothing.  The map ends where `TXBUF`'s
entries end: behind `0x16D` with the 110 entries of this hardware (R22; for another number of entries, the model's
inference, log entry 16). -/
def Obligations.ReadOutsideTheMapIsIllegal : Prop :=
  ∀ (s : State) (addr : Half), 0x00B < addr.toNat →
    addr.toNat < 0x100 ∨ (0x100 + s.regs.txBuf.length ≤ addr.toNat ∧ addr.toNat < 0x200) ∨
      0x2FE < addr.toNat →
      exec (.read addr) s = .next { s with response := some [0x0B], events := [] }

/-! ### Every operation -/

/-- R251, over all operations and all states: an operation completes, and its response begins with `ERR`; if
`ERR` is not OK the response is that one byte, no register changed and no event was emitted. -/
def Obligations.ErrorsLeaveNoTrace : Prop :=
  ∀ (i : Instr) (s : State), ∃ t err data, exec i s = .next t ∧ t.response = some (err :: data) ∧
    (err ≠ 0x00 → data = [] ∧ t.regs = s.regs ∧ t.events = [])

/-- Which errors an operation can answer (R250, R252): never a reserved `ERR` value, and InvalidMac only with
`MAC_VERIFY`. -/
def Obligations.EachOperationRaisesOnlyItsErrors : Prop :=
  ∀ (i : Instr) (s t : State) (err : Byte) (data : List Byte),
    exec i s = .next t → t.response = some (err :: data) → err ≠ 0x00 →
      (∃ origin ecc code payload now, i = .encode origin ecc code payload now ∧ (err = 1 ∨ err = 2)) ∨
      ((∃ b, i = .decode b ∨ i = .receive b) ∧
        (err = 3 ∨ err = 4 ∨ err = 5 ∨ (err = 6 ∧ s.config.macVerify = true))) ∨
      (i = .send ∧ (err = 7 ∨ err = 8 ∨ err = 9 ∨ err = 10)) ∨
      (i = .abort ∧ err = 7) ∨
      (∃ addr, i = .read addr ∧ err = 11)

/-- `Evt` is emitted by a successful SEND, by every TICK taken while a command waits, by every
classification, and by nothing else (R257). -/
def Obligations.EvtExactlyOnStatusChange : Prop :=
  ∀ (i : Instr) (s t : State) (err : Byte) (data : List Byte),
    exec i s = .next t → t.response = some (err :: data) →
      (.evt ∈ t.events ↔
        (i = .send ∧ err = 0x00) ∨ (i = .tick ∧ s.regs.wait = true) ∨
        (∃ b, i = .receive b ∧ s.regs.wait = true ∧ err = 0x00))

/-- Only SEND transmits, and only the bytes `TXBUF[0 .. TXLEN-1]`, once, followed by the trigger (R61,
R205). -/
def Obligations.OnlySendTransmits : Prop :=
  ∀ (i : Instr) (s t : State) (bytes : List Byte),
    exec i s = .next t → .txFrame bytes ∈ t.events ∨ .txTrigger ∈ t.events →
      i = .send ∧ t.events =
        [.txFrame (s.regs.txBuf.take s.regs.txLen.toNat), .txTrigger, .evt]

/-- Which operations write which registers (R22 to R37): the transmit buffer by ENCODE, SEND and ABORT;
`LASTCODE` by SEND; `ELAPSED` by SEND and TICK; `WAIT` and `STATUS` by SEND, RECEIVE and TICK; the results
by SEND and RECEIVE; the receive registers by DECODE and RECEIVE. -/
def Obligations.RegistersChangeOnlyByTheirWriters : Prop :=
  ∀ (i : Instr) (s t : State), exec i s = .next t →
    let isEncode := ∃ origin ecc code payload now, i = .encode origin ecc code payload now
    let isDecode := ∃ b, i = .decode b
    let isReceive := ∃ b, i = .receive b
    (¬isEncode ∧ i ≠ .send ∧ i ≠ .abort →
      t.regs.txBuf = s.regs.txBuf ∧ t.regs.txLen = s.regs.txLen ∧ t.regs.txV = s.regs.txV) ∧
    (i ≠ .send → t.regs.lastCode = s.regs.lastCode) ∧
    (i ≠ .send ∧ i ≠ .tick → t.regs.elapsed = s.regs.elapsed) ∧
    (i ≠ .send ∧ ¬isReceive ∧ i ≠ .tick → t.regs.wait = s.regs.wait ∧ t.regs.status = s.regs.status) ∧
    (i ≠ .send ∧ ¬isReceive →
      t.regs.ackSrc = s.regs.ackSrc ∧ t.regs.nackReq = s.regs.nackReq ∧
      t.regs.nackErr = s.regs.nackErr ∧ t.regs.nackV = s.regs.nackV ∧
      t.regs.unexpCode = s.regs.unexpCode ∧ t.regs.pingRssi = s.regs.pingRssi ∧
      t.regs.pingSnr = s.regs.pingSnr ∧ t.regs.pingFshift = s.regs.pingFshift ∧
      t.regs.pingV = s.regs.pingV ∧ t.regs.diag = s.regs.diag) ∧
    (¬isDecode ∧ ¬isReceive →
      t.regs.rxOrigin = s.regs.rxOrigin ∧ t.regs.rxCode = s.regs.rxCode ∧ t.regs.rxLen = s.regs.rxLen ∧
      t.regs.rxTs = s.regs.rxTs ∧ t.regs.rxMac = s.regs.rxMac ∧ t.regs.rxEcc = s.regs.rxEcc ∧
      t.regs.rxPayload = s.regs.rxPayload ∧ t.regs.rxV = s.regs.rxV ∧ t.regs.rxMacOk = s.regs.rxMacOk)

/-- A terminal `STATUS` is changed by a successful SEND alone (R26), in states where `WAIT = 1` exactly when
`STATUS = WAITING` (R25, part of the invariant that every step keeps). -/
def Obligations.TerminalStatusChangesOnlyBySend : Prop :=
  ∀ (i : Instr) (s t : State) (err : Byte) (data : List Byte),
    (s.regs.wait = true ↔ s.regs.status = .waiting) → s.regs.status ≠ .none → s.regs.status ≠ .waiting →
    exec i s = .next t → t.response = some (err :: data) →
      t.regs.status = s.regs.status ∨ (i = .send ∧ err = 0x00 ∧ t.regs.status = .waiting)

/-- The transitions of the command states (R200), from a safe state: an operation enters `queued` by ENCODE
and leaves it by SEND or ABORT; it enters `sent` by SEND of a queued frame, and leaves it by RECEIVE or
TICK, for a terminal state. -/
def Obligations.LifecycleTransitions : Prop :=
  ∀ (i : Instr) (s t : State), s.Safe → exec i s = .next t →
    (s.regs.isIn .queued = false → t.regs.isIn .queued = true →
      ∃ origin ecc code payload now, i = .encode origin ecc code payload now) ∧
    (s.regs.isIn .queued = true → t.regs.isIn .queued = false → i = .send ∨ i = .abort) ∧
    (s.regs.isIn .sent = false → t.regs.isIn .sent = true →
      i = .send ∧ s.regs.isIn .queued = true ∧ t.regs.isIn .queued = false) ∧
    (s.regs.isIn .sent = true → t.regs.isIn .sent = false →
      ((∃ b, i = .receive b) ∧ (t.regs.isIn .acked = true ∨ t.regs.isIn .invalidAck = true ∨
        t.regs.isIn .nacked = true ∨ t.regs.isIn .unexpectedReply = true)) ∨
      (i = .tick ∧ t.regs.isIn .noReply = true))

/-- Every operation except SEND, TICK and RECEIVE leaves the same registers when repeated at once with the
same operands (R68). -/
def Obligations.RepeatedOperationLeavesTheSameRegisters : Prop :=
  ∀ (i : Instr) (s t : State), i ≠ .send → i ≠ .tick → (∀ b, i ≠ .receive b) → exec i s = .next t →
    ∃ u, exec i t = .next u ∧ u.regs = t.regs

/-- R40: no step writes the configuration, and on the same registers, the number of `TXBUF`'s entries among them,
READ answers the same under any two configurations.  Where the two differ in `PAYLOAD_MAX`, at most one of the states
has the `TXBUF` its configuration gives (R22), and READ in the other is the model's choice (log entries 8, 16). -/
def Obligations.ConfigurationIsConstantAndNotReadable : Prop :=
  (∀ s t : State, step s = .next t → t.config = s.config) ∧
  ∀ (s : State) (c : Config) (addr : Half), ∃ t,
    exec (.read addr) s = .next t ∧ exec (.read addr) { s with config := c } = .next { t with config := c }

/-- The key is used for tags alone: SEND, TICK, ABORT and READ do the same, to every register, response and
event, under any two keys (R3, R161). -/
def Obligations.KeyReachesOnlyTagOperations : Prop :=
  ∀ (i : Instr) (s : State) (key : Word), i = .send ∨ i = .tick ∨ i = .abort ∨ (∃ addr, i = .read addr) →
    ∃ t, exec i s = .next t ∧
      exec i { s with config := { s.config with key := key } } =
        .next { t with config := { t.config with key := key } }

/-- `PAYLOAD_MAX` bounds ENCODE and sizes `TXBUF` and nothing else: the parse does not compare with it (R133), and
on the same registers DECODE, RECEIVE, TICK, TAG, READ, and SEND and ABORT with nothing held, do the same under any
two values of it.  The two states hold one `TXBUF`, of one number of entries, so at most one of them has the size
its `PAYLOAD_MAX` gives (R22, D28; `Regs.Inv.tx_size`): READ sees `PAYLOAD_MAX` through that number, and from reset
READ of `0x16E` is IllegalOp under 98 and answers a word under 99.  That READ goes by the entries there are, also in
the state of the other size, is the model's choice (log entries 8, 16). -/
def Obligations.PayloadCeilingReachesOnlyTheTransmitBuffer : Prop :=
  ∀ (i : Instr) (s : State) (m : Fin 256),
    (∃ b, i = .decode b ∨ i = .receive b ∨ i = .tag b) ∨ i = .tick ∨ (∃ addr, i = .read addr) ∨
      ((i = .send ∨ i = .abort) ∧ s.regs.txV = false) →
    ∃ t, exec i s = .next t ∧
      exec i { s with config := { s.config with payloadMax := m } } =
        .next { t with config := { t.config with payloadMax := m } }

/-! ### Invariants -/

/-- The registers are at all times as R22, R23, R25, R27, R30, R32, R35 and R221 say: every step from a safe
state, whatever the host issues, gives a safe state. -/
def Obligations.EveryStepKeepsTheRegistersSafe : Prop :=
  ∀ s t : State, s.Safe → step s = .next t → t.Safe

/-- The state after reset is safe, and reset gives safe registers under every configuration. -/
def Obligations.ResetIsSafe : Prop :=
  State.reset.Safe ∧ ∀ c : Config, (Regs.reset c).Inv c

/-- From a safe state, any number of steps gives a safe state: along every run the timeout counter never
wraps (R27) and the status and the waiting bit agree (R25). -/
def Obligations.EveryRunStaysSafe : Prop :=
  ∀ (n : Nat) (s : State), s.Safe →
    ∃ t, Sys2Proof.core.run n s = .next t ∧ t.Safe ∧ t.config = s.config ∧
      (t.regs.wait = true → (t.regs.elapsed + 1).toNat = t.regs.elapsed.toNat + 1)

/-! ### Bytes -/

/-- R11: the big-endian conversions, and that reading back what was written gives the value. -/
def Obligations.BigEndianConversions : Prop :=
  (∀ b0 b1 b2 b3 : Byte, (be32 b0 b1 b2 b3).toNat =
    b0.toNat * 2 ^ 24 + b1.toNat * 2 ^ 16 + b2.toNat * 2 ^ 8 + b3.toNat) ∧
  (∀ v : Word, be32At (bytes32 v) 0 = v) ∧
  (∀ b0 b1 b2 b3 : Byte, bytes32 (be32 b0 b1 b2 b3) = [b0, b1, b2, b3]) ∧
  (∀ b0 b1 : Byte, (be16 b0 b1).toNat = b0.toNat * 2 ^ 8 + b1.toNat) ∧
  (∀ v : Half, be16At (bytes16 v) 0 = v) ∧
  ∀ b0 b1 : Byte, bytes16 (be16 b0 b1) = [b0, b1]
end

