-- ==== Sys2Proof/Laws/Bytes.lean ====
section
/-!
SUPPORT. The small lemmas of the byte sequences.
-/

namespace Sys2Proof.Machine

@[simp] theorem zeros_length (n : Nat) : (zeros n).length = n := List.length_replicate

@[simp] theorem zeros_zero : zeros 0 = [] := rfl

theorem zeros_append (m n : Nat) : zeros m ++ zeros n = zeros (m + n) := List.replicate_append_replicate

@[simp] theorem bytes16_length (v : Half) : (bytes16 v).length = 2 := rfl

@[simp] theorem bytes32_length (v : Word) : (bytes32 v).length = 4 := rfl

@[simp] theorem bytes64_length (v : BitVec 64) : (bytes64 v).length = 8 := rfl

theorem byteAt_append_left {b : List Byte} {i : Nat} (h : i < b.length) (c : List Byte) :
    byteAt (b ++ c) i = byteAt b i := by
  simp [byteAt, List.getElem?_append_left h]

theorem byteAt_append_right {b : List Byte} {i : Nat} (h : b.length ≤ i) (c : List Byte) :
    byteAt (b ++ c) i = byteAt c (i - b.length) := by
  simp [byteAt, List.getElem?_append_right h]

theorem byteAt_eq_getElem {b : List Byte} {i : Nat} (h : i < b.length) : byteAt b i = b[i] := by
  simp [byteAt, h]

theorem byteAt_past_end {b : List Byte} {i : Nat} (h : b.length ≤ i) : byteAt b i = 0 := by
  simp [byteAt, h]

@[simp] theorem byteAt_cons_zero (x : Byte) (b : List Byte) : byteAt (x :: b) 0 = x := rfl

@[simp] theorem byteAt_cons_succ (x : Byte) (b : List Byte) (i : Nat) :
    byteAt (x :: b) (i + 1) = byteAt b i := rfl

/-- A read within the first `n` bytes of a range is a read of the sequence. -/
theorem byteAt_bytesFrom (b : List Byte) {off n i : Nat} (h : i < n) :
    byteAt (bytesFrom b off n) i = byteAt b (off + i) := by
  simp [byteAt, bytesFrom, h]

theorem bytesFrom_length {b : List Byte} {off n : Nat} (h : off + n ≤ b.length) :
    (bytesFrom b off n).length = n := by
  simp only [bytesFrom, List.length_take, List.length_drop]
  omega

/-- A range that lies in the first part of a sequence does not see the second. -/
theorem bytesFrom_append_left {b : List Byte} {off n : Nat} (h : off + n ≤ b.length) (c : List Byte) :
    bytesFrom (b ++ c) off n = bytesFrom b off n := by
  unfold bytesFrom
  rw [List.drop_append_of_le_length (by omega), List.take_append_of_le_length]
  rw [List.length_drop]
  omega

/-- A 16-bit word is put together again from its two bytes. -/
theorem be16_extract (v : Half) : be16 (v.extractLsb' 8 8) (v.extractLsb' 0 8) = v := by
  apply BitVec.eq_of_toNat_eq
  show ((v.extractLsb' 8 8) ++ (v.extractLsb' 0 8) : BitVec (8 + 8)).toNat = _
  have hv := v.isLt
  rw [BitVec.toNat_append, BitVec.extractLsb'_toNat, BitVec.extractLsb'_toNat,
    ← Nat.shiftLeft_add_eq_or_of_lt (by omega), Nat.shiftLeft_eq, Nat.shiftRight_eq_div_pow]
  omega

/-- The ECC operand of a message is read back from its byte. -/
@[simp] theorem eccOperand_eccOperandByte (ecc : Bool) :
    eccOperand (eccOperandByte ecc) = .ok ecc := by
  cases ecc <;> rfl

end Sys2Proof.Machine
end

