-- ==== Sys2Proof/Laws/State.lean ====
section
/-!
SUPPORT. One lemma per field per update of the state and of the registers, each true by definition, so that
no proof unfolds an update.
-/

namespace Sys2Proof.Machine

section
variable (s : State) (c : Config) (r : Regs)

/-! ### Updates of the state -/

@[simp] theorem State.complete_regs (r : Regs) (d : List Byte) (ev : List Event) :
    (s.complete r d ev).regs = r := rfl
@[simp] theorem State.complete_config (r : Regs) (d : List Byte) (ev : List Event) :
    (s.complete r d ev).config = s.config := rfl
@[simp] theorem State.complete_linkUp (r : Regs) (d : List Byte) (ev : List Event) :
    (s.complete r d ev).linkUp = s.linkUp := rfl
@[simp] theorem State.complete_txAccept (r : Regs) (d : List Byte) (ev : List Event) :
    (s.complete r d ev).txAccept = s.txAccept := rfl
@[simp] theorem State.complete_hostQueue (r : Regs) (d : List Byte) (ev : List Event) :
    (s.complete r d ev).hostQueue = s.hostQueue := rfl
@[simp] theorem State.complete_response (r : Regs) (d : List Byte) (ev : List Event) :
    (s.complete r d ev).response = some (okCode :: d) := rfl
@[simp] theorem State.complete_events (r : Regs) (d : List Byte) (ev : List Event) :
    (s.complete r d ev).events = ev := rfl

@[simp] theorem State.raise_regs (e : Err) :
    (s.raise e).regs = s.regs := rfl
@[simp] theorem State.raise_config (e : Err) :
    (s.raise e).config = s.config := rfl
@[simp] theorem State.raise_linkUp (e : Err) :
    (s.raise e).linkUp = s.linkUp := rfl
@[simp] theorem State.raise_txAccept (e : Err) :
    (s.raise e).txAccept = s.txAccept := rfl
@[simp] theorem State.raise_hostQueue (e : Err) :
    (s.raise e).hostQueue = s.hostQueue := rfl
@[simp] theorem State.raise_response (e : Err) :
    (s.raise e).response = some [e.code] := rfl
@[simp] theorem State.raise_events (e : Err) :
    (s.raise e).events = [] := rfl

@[simp] theorem State.idle_regs :
    (s.idle).regs = s.regs := rfl
@[simp] theorem State.idle_config :
    (s.idle).config = s.config := rfl
@[simp] theorem State.idle_linkUp :
    (s.idle).linkUp = s.linkUp := rfl
@[simp] theorem State.idle_txAccept :
    (s.idle).txAccept = s.txAccept := rfl
@[simp] theorem State.idle_hostQueue :
    (s.idle).hostQueue = s.hostQueue := rfl
@[simp] theorem State.idle_response :
    (s.idle).response = none := rfl
@[simp] theorem State.idle_events :
    (s.idle).events = [] := rfl

@[simp] theorem State.takeReset_regs (q : List HostInput) :
    (s.takeReset q).regs = Regs.reset s.config := rfl
@[simp] theorem State.takeReset_config (q : List HostInput) :
    (s.takeReset q).config = s.config := rfl
@[simp] theorem State.takeReset_linkUp (q : List HostInput) :
    (s.takeReset q).linkUp = s.linkUp := rfl
@[simp] theorem State.takeReset_txAccept (q : List HostInput) :
    (s.takeReset q).txAccept = s.txAccept := rfl
@[simp] theorem State.takeReset_hostQueue (q : List HostInput) :
    (s.takeReset q).hostQueue = q := rfl
@[simp] theorem State.takeReset_response (q : List HostInput) :
    (s.takeReset q).response = none := rfl
@[simp] theorem State.takeReset_events (q : List HostInput) :
    (s.takeReset q).events = [] := rfl

@[simp] theorem State.takeOp_regs (l a : Bool) (q : List HostInput) :
    (s.takeOp l a q).regs = s.regs := rfl
@[simp] theorem State.takeOp_config (l a : Bool) (q : List HostInput) :
    (s.takeOp l a q).config = s.config := rfl
@[simp] theorem State.takeOp_linkUp (l a : Bool) (q : List HostInput) :
    (s.takeOp l a q).linkUp = l := rfl
@[simp] theorem State.takeOp_txAccept (l a : Bool) (q : List HostInput) :
    (s.takeOp l a q).txAccept = a := rfl
@[simp] theorem State.takeOp_hostQueue (l a : Bool) (q : List HostInput) :
    (s.takeOp l a q).hostQueue = q := rfl
@[simp] theorem State.takeOp_response (l a : Bool) (q : List HostInput) :
    (s.takeOp l a q).response = s.response := rfl
@[simp] theorem State.takeOp_events (l a : Bool) (q : List HostInput) :
    (s.takeOp l a q).events = s.events := rfl

@[simp] theorem State.withFetchWord_regs (n w : Nat) :
    (s.withFetchWord n w).regs = s.regs := rfl
@[simp] theorem State.withFetchWord_config (n w : Nat) :
    (s.withFetchWord n w).config = s.config := rfl
@[simp] theorem State.withFetchWord_linkUp (n w : Nat) :
    (s.withFetchWord n w).linkUp = s.linkUp := rfl
@[simp] theorem State.withFetchWord_txAccept (n w : Nat) :
    (s.withFetchWord n w).txAccept = s.txAccept := rfl
@[simp] theorem State.withFetchWord_hostQueue (n w : Nat) :
    (s.withFetchWord n w).hostQueue = .op (messageOfTableWord n w) s.linkUp s.txAccept :: s.hostQueue := rfl
@[simp] theorem State.withFetchWord_response (n w : Nat) :
    (s.withFetchWord n w).response = s.response := rfl
@[simp] theorem State.withFetchWord_events (n w : Nat) :
    (s.withFetchWord n w).events = s.events := rfl

/-! ### Updates of the registers -/

@[simp] theorem Regs.clearTx_txBuf :
    (r.clearTx c).txBuf = zeros c.txBufSize := rfl
@[simp] theorem Regs.clearTx_txLen :
    (r.clearTx c).txLen = 0 := rfl
@[simp] theorem Regs.clearTx_txV :
    (r.clearTx c).txV = false := rfl
@[simp] theorem Regs.clearTx_wait :
    (r.clearTx c).wait = r.wait := rfl
@[simp] theorem Regs.clearTx_status :
    (r.clearTx c).status = r.status := rfl
@[simp] theorem Regs.clearTx_elapsed :
    (r.clearTx c).elapsed = r.elapsed := rfl
@[simp] theorem Regs.clearTx_lastCode :
    (r.clearTx c).lastCode = r.lastCode := rfl
@[simp] theorem Regs.clearTx_ackSrc :
    (r.clearTx c).ackSrc = r.ackSrc := rfl
@[simp] theorem Regs.clearTx_nackReq :
    (r.clearTx c).nackReq = r.nackReq := rfl
@[simp] theorem Regs.clearTx_nackErr :
    (r.clearTx c).nackErr = r.nackErr := rfl
@[simp] theorem Regs.clearTx_nackV :
    (r.clearTx c).nackV = r.nackV := rfl
@[simp] theorem Regs.clearTx_unexpCode :
    (r.clearTx c).unexpCode = r.unexpCode := rfl
@[simp] theorem Regs.clearTx_pingRssi :
    (r.clearTx c).pingRssi = r.pingRssi := rfl
@[simp] theorem Regs.clearTx_pingSnr :
    (r.clearTx c).pingSnr = r.pingSnr := rfl
@[simp] theorem Regs.clearTx_pingFshift :
    (r.clearTx c).pingFshift = r.pingFshift := rfl
@[simp] theorem Regs.clearTx_pingV :
    (r.clearTx c).pingV = r.pingV := rfl
@[simp] theorem Regs.clearTx_diag :
    (r.clearTx c).diag = r.diag := rfl
@[simp] theorem Regs.clearTx_rxOrigin :
    (r.clearTx c).rxOrigin = r.rxOrigin := rfl
@[simp] theorem Regs.clearTx_rxCode :
    (r.clearTx c).rxCode = r.rxCode := rfl
@[simp] theorem Regs.clearTx_rxLen :
    (r.clearTx c).rxLen = r.rxLen := rfl
@[simp] theorem Regs.clearTx_rxTs :
    (r.clearTx c).rxTs = r.rxTs := rfl
@[simp] theorem Regs.clearTx_rxMac :
    (r.clearTx c).rxMac = r.rxMac := rfl
@[simp] theorem Regs.clearTx_rxEcc :
    (r.clearTx c).rxEcc = r.rxEcc := rfl
@[simp] theorem Regs.clearTx_rxPayload :
    (r.clearTx c).rxPayload = r.rxPayload := rfl
@[simp] theorem Regs.clearTx_rxV :
    (r.clearTx c).rxV = r.rxV := rfl
@[simp] theorem Regs.clearTx_rxMacOk :
    (r.clearTx c).rxMacOk = r.rxMacOk := rfl

@[simp] theorem Regs.holdFrame_txBuf (f : List Byte) :
    (r.holdFrame c f).txBuf = filledBuffer c.txBufSize f := rfl
@[simp] theorem Regs.holdFrame_txLen (f : List Byte) :
    (r.holdFrame c f).txLen = frameLength f := rfl
@[simp] theorem Regs.holdFrame_txV (f : List Byte) :
    (r.holdFrame c f).txV = true := rfl
@[simp] theorem Regs.holdFrame_wait (f : List Byte) :
    (r.holdFrame c f).wait = r.wait := rfl
@[simp] theorem Regs.holdFrame_status (f : List Byte) :
    (r.holdFrame c f).status = r.status := rfl
@[simp] theorem Regs.holdFrame_elapsed (f : List Byte) :
    (r.holdFrame c f).elapsed = r.elapsed := rfl
@[simp] theorem Regs.holdFrame_lastCode (f : List Byte) :
    (r.holdFrame c f).lastCode = r.lastCode := rfl
@[simp] theorem Regs.holdFrame_ackSrc (f : List Byte) :
    (r.holdFrame c f).ackSrc = r.ackSrc := rfl
@[simp] theorem Regs.holdFrame_nackReq (f : List Byte) :
    (r.holdFrame c f).nackReq = r.nackReq := rfl
@[simp] theorem Regs.holdFrame_nackErr (f : List Byte) :
    (r.holdFrame c f).nackErr = r.nackErr := rfl
@[simp] theorem Regs.holdFrame_nackV (f : List Byte) :
    (r.holdFrame c f).nackV = r.nackV := rfl
@[simp] theorem Regs.holdFrame_unexpCode (f : List Byte) :
    (r.holdFrame c f).unexpCode = r.unexpCode := rfl
@[simp] theorem Regs.holdFrame_pingRssi (f : List Byte) :
    (r.holdFrame c f).pingRssi = r.pingRssi := rfl
@[simp] theorem Regs.holdFrame_pingSnr (f : List Byte) :
    (r.holdFrame c f).pingSnr = r.pingSnr := rfl
@[simp] theorem Regs.holdFrame_pingFshift (f : List Byte) :
    (r.holdFrame c f).pingFshift = r.pingFshift := rfl
@[simp] theorem Regs.holdFrame_pingV (f : List Byte) :
    (r.holdFrame c f).pingV = r.pingV := rfl
@[simp] theorem Regs.holdFrame_diag (f : List Byte) :
    (r.holdFrame c f).diag = r.diag := rfl
@[simp] theorem Regs.holdFrame_rxOrigin (f : List Byte) :
    (r.holdFrame c f).rxOrigin = r.rxOrigin := rfl
@[simp] theorem Regs.holdFrame_rxCode (f : List Byte) :
    (r.holdFrame c f).rxCode = r.rxCode := rfl
@[simp] theorem Regs.holdFrame_rxLen (f : List Byte) :
    (r.holdFrame c f).rxLen = r.rxLen := rfl
@[simp] theorem Regs.holdFrame_rxTs (f : List Byte) :
    (r.holdFrame c f).rxTs = r.rxTs := rfl
@[simp] theorem Regs.holdFrame_rxMac (f : List Byte) :
    (r.holdFrame c f).rxMac = r.rxMac := rfl
@[simp] theorem Regs.holdFrame_rxEcc (f : List Byte) :
    (r.holdFrame c f).rxEcc = r.rxEcc := rfl
@[simp] theorem Regs.holdFrame_rxPayload (f : List Byte) :
    (r.holdFrame c f).rxPayload = r.rxPayload := rfl
@[simp] theorem Regs.holdFrame_rxV (f : List Byte) :
    (r.holdFrame c f).rxV = r.rxV := rfl
@[simp] theorem Regs.holdFrame_rxMacOk (f : List Byte) :
    (r.holdFrame c f).rxMacOk = r.rxMacOk := rfl

@[simp] theorem Regs.commitFrame_txBuf (f : Frame) :
    (r.commitFrame f).txBuf = r.txBuf := rfl
@[simp] theorem Regs.commitFrame_txLen (f : Frame) :
    (r.commitFrame f).txLen = r.txLen := rfl
@[simp] theorem Regs.commitFrame_txV (f : Frame) :
    (r.commitFrame f).txV = r.txV := rfl
@[simp] theorem Regs.commitFrame_wait (f : Frame) :
    (r.commitFrame f).wait = r.wait := rfl
@[simp] theorem Regs.commitFrame_status (f : Frame) :
    (r.commitFrame f).status = r.status := rfl
@[simp] theorem Regs.commitFrame_elapsed (f : Frame) :
    (r.commitFrame f).elapsed = r.elapsed := rfl
@[simp] theorem Regs.commitFrame_lastCode (f : Frame) :
    (r.commitFrame f).lastCode = r.lastCode := rfl
@[simp] theorem Regs.commitFrame_ackSrc (f : Frame) :
    (r.commitFrame f).ackSrc = r.ackSrc := rfl
@[simp] theorem Regs.commitFrame_nackReq (f : Frame) :
    (r.commitFrame f).nackReq = r.nackReq := rfl
@[simp] theorem Regs.commitFrame_nackErr (f : Frame) :
    (r.commitFrame f).nackErr = r.nackErr := rfl
@[simp] theorem Regs.commitFrame_nackV (f : Frame) :
    (r.commitFrame f).nackV = r.nackV := rfl
@[simp] theorem Regs.commitFrame_unexpCode (f : Frame) :
    (r.commitFrame f).unexpCode = r.unexpCode := rfl
@[simp] theorem Regs.commitFrame_pingRssi (f : Frame) :
    (r.commitFrame f).pingRssi = r.pingRssi := rfl
@[simp] theorem Regs.commitFrame_pingSnr (f : Frame) :
    (r.commitFrame f).pingSnr = r.pingSnr := rfl
@[simp] theorem Regs.commitFrame_pingFshift (f : Frame) :
    (r.commitFrame f).pingFshift = r.pingFshift := rfl
@[simp] theorem Regs.commitFrame_pingV (f : Frame) :
    (r.commitFrame f).pingV = r.pingV := rfl
@[simp] theorem Regs.commitFrame_diag (f : Frame) :
    (r.commitFrame f).diag = r.diag := rfl
@[simp] theorem Regs.commitFrame_rxOrigin (f : Frame) :
    (r.commitFrame f).rxOrigin = f.origin := rfl
@[simp] theorem Regs.commitFrame_rxCode (f : Frame) :
    (r.commitFrame f).rxCode = f.code := rfl
@[simp] theorem Regs.commitFrame_rxLen (f : Frame) :
    (r.commitFrame f).rxLen = f.len := rfl
@[simp] theorem Regs.commitFrame_rxTs (f : Frame) :
    (r.commitFrame f).rxTs = f.ts := rfl
@[simp] theorem Regs.commitFrame_rxMac (f : Frame) :
    (r.commitFrame f).rxMac = f.mac := rfl
@[simp] theorem Regs.commitFrame_rxEcc (f : Frame) :
    (r.commitFrame f).rxEcc = f.ecc := rfl
@[simp] theorem Regs.commitFrame_rxPayload (f : Frame) :
    (r.commitFrame f).rxPayload = filledVector Config.rxPayloadSize f.payload := rfl
@[simp] theorem Regs.commitFrame_rxV (f : Frame) :
    (r.commitFrame f).rxV = true := rfl
@[simp] theorem Regs.commitFrame_rxMacOk (f : Frame) :
    (r.commitFrame f).rxMacOk = f.macOk := rfl

@[simp] theorem Regs.startCommand_txBuf :
    (r.startCommand c).txBuf = zeros c.txBufSize := rfl
@[simp] theorem Regs.startCommand_txLen :
    (r.startCommand c).txLen = 0 := rfl
@[simp] theorem Regs.startCommand_txV :
    (r.startCommand c).txV = false := rfl
@[simp] theorem Regs.startCommand_wait :
    (r.startCommand c).wait = true := rfl
@[simp] theorem Regs.startCommand_status :
    (r.startCommand c).status = .waiting := rfl
@[simp] theorem Regs.startCommand_elapsed :
    (r.startCommand c).elapsed = 0 := rfl
@[simp] theorem Regs.startCommand_lastCode :
    (r.startCommand c).lastCode = byteAt r.txBuf 2 := rfl
@[simp] theorem Regs.startCommand_ackSrc :
    (r.startCommand c).ackSrc = false := rfl
@[simp] theorem Regs.startCommand_nackReq :
    (r.startCommand c).nackReq = 0 := rfl
@[simp] theorem Regs.startCommand_nackErr :
    (r.startCommand c).nackErr = 0 := rfl
@[simp] theorem Regs.startCommand_nackV :
    (r.startCommand c).nackV = false := rfl
@[simp] theorem Regs.startCommand_unexpCode :
    (r.startCommand c).unexpCode = 0 := rfl
@[simp] theorem Regs.startCommand_pingRssi :
    (r.startCommand c).pingRssi = 0 := rfl
@[simp] theorem Regs.startCommand_pingSnr :
    (r.startCommand c).pingSnr = 0 := rfl
@[simp] theorem Regs.startCommand_pingFshift :
    (r.startCommand c).pingFshift = 0 := rfl
@[simp] theorem Regs.startCommand_pingV :
    (r.startCommand c).pingV = false := rfl
@[simp] theorem Regs.startCommand_diag :
    (r.startCommand c).diag = .none := rfl
@[simp] theorem Regs.startCommand_rxOrigin :
    (r.startCommand c).rxOrigin = r.rxOrigin := rfl
@[simp] theorem Regs.startCommand_rxCode :
    (r.startCommand c).rxCode = r.rxCode := rfl
@[simp] theorem Regs.startCommand_rxLen :
    (r.startCommand c).rxLen = r.rxLen := rfl
@[simp] theorem Regs.startCommand_rxTs :
    (r.startCommand c).rxTs = r.rxTs := rfl
@[simp] theorem Regs.startCommand_rxMac :
    (r.startCommand c).rxMac = r.rxMac := rfl
@[simp] theorem Regs.startCommand_rxEcc :
    (r.startCommand c).rxEcc = r.rxEcc := rfl
@[simp] theorem Regs.startCommand_rxPayload :
    (r.startCommand c).rxPayload = r.rxPayload := rfl
@[simp] theorem Regs.startCommand_rxV :
    (r.startCommand c).rxV = r.rxV := rfl
@[simp] theorem Regs.startCommand_rxMacOk :
    (r.startCommand c).rxMacOk = r.rxMacOk := rfl

@[simp] theorem Regs.classifyOther_txBuf :
    (r.classifyOther).txBuf = r.txBuf := rfl
@[simp] theorem Regs.classifyOther_txLen :
    (r.classifyOther).txLen = r.txLen := rfl
@[simp] theorem Regs.classifyOther_txV :
    (r.classifyOther).txV = r.txV := rfl
@[simp] theorem Regs.classifyOther_wait :
    (r.classifyOther).wait = r.wait := rfl
@[simp] theorem Regs.classifyOther_status :
    (r.classifyOther).status = .unexpectedReply := rfl
@[simp] theorem Regs.classifyOther_elapsed :
    (r.classifyOther).elapsed = r.elapsed := rfl
@[simp] theorem Regs.classifyOther_lastCode :
    (r.classifyOther).lastCode = r.lastCode := rfl
@[simp] theorem Regs.classifyOther_ackSrc :
    (r.classifyOther).ackSrc = r.ackSrc := rfl
@[simp] theorem Regs.classifyOther_nackReq :
    (r.classifyOther).nackReq = r.nackReq := rfl
@[simp] theorem Regs.classifyOther_nackErr :
    (r.classifyOther).nackErr = r.nackErr := rfl
@[simp] theorem Regs.classifyOther_nackV :
    (r.classifyOther).nackV = r.nackV := rfl
@[simp] theorem Regs.classifyOther_unexpCode :
    (r.classifyOther).unexpCode = r.rxCode := rfl
@[simp] theorem Regs.classifyOther_pingRssi :
    (r.classifyOther).pingRssi = r.pingRssi := rfl
@[simp] theorem Regs.classifyOther_pingSnr :
    (r.classifyOther).pingSnr = r.pingSnr := rfl
@[simp] theorem Regs.classifyOther_pingFshift :
    (r.classifyOther).pingFshift = r.pingFshift := rfl
@[simp] theorem Regs.classifyOther_pingV :
    (r.classifyOther).pingV = r.pingV := rfl
@[simp] theorem Regs.classifyOther_diag :
    (r.classifyOther).diag = .none := rfl
@[simp] theorem Regs.classifyOther_rxOrigin :
    (r.classifyOther).rxOrigin = r.rxOrigin := rfl
@[simp] theorem Regs.classifyOther_rxCode :
    (r.classifyOther).rxCode = r.rxCode := rfl
@[simp] theorem Regs.classifyOther_rxLen :
    (r.classifyOther).rxLen = r.rxLen := rfl
@[simp] theorem Regs.classifyOther_rxTs :
    (r.classifyOther).rxTs = r.rxTs := rfl
@[simp] theorem Regs.classifyOther_rxMac :
    (r.classifyOther).rxMac = r.rxMac := rfl
@[simp] theorem Regs.classifyOther_rxEcc :
    (r.classifyOther).rxEcc = r.rxEcc := rfl
@[simp] theorem Regs.classifyOther_rxPayload :
    (r.classifyOther).rxPayload = r.rxPayload := rfl
@[simp] theorem Regs.classifyOther_rxV :
    (r.classifyOther).rxV = r.rxV := rfl
@[simp] theorem Regs.classifyOther_rxMacOk :
    (r.classifyOther).rxMacOk = r.rxMacOk := rfl

end

end Sys2Proof.Machine
end

