-- ==== Sys2Proof/Laws/Ops.lean ====
section
/-!
SUPPORT. One lemma for each shared operation and each meaning, saying once all it can do, to be cited in
place of the definition.
-/

namespace Sys2Proof.Machine

/-! ### Buffers -/

/-- What a buffer holds after a write that fits in it: the bytes before, the bytes written, the bytes
after. -/
theorem memWrite_eq (buf : List Byte) {addr : Nat} {v : List Byte} (h : addr + v.length ≤ buf.length) :
    memWrite buf addr v = buf.take addr ++ v ++ buf.drop (addr + v.length) := by
  unfold memWrite
  rw [List.take_of_length_le (by simp only [List.length_append, List.length_take]; omega)]

/-- A write never changes the size of a buffer. -/
@[simp] theorem memWrite_length (buf : List Byte) (addr : Nat) (v : List Byte) :
    (memWrite buf addr v).length = buf.length := by
  simp only [memWrite, List.length_append, List.length_take, List.length_drop]
  omega

/-- A filled buffer has the size asked for. -/
@[simp] theorem filledBuffer_length (size : Nat) (v : List Byte) : (filledBuffer size v).length = size := by
  simp [filledBuffer]

/-- A filled buffer holds its bytes and then zeros. -/
theorem filledBuffer_eq {size : Nat} {v : List Byte} (h : v.length ≤ size) :
    filledBuffer size v = v ++ zeros (size - v.length) := by
  unfold filledBuffer
  rw [memWrite_eq _ (by simpa using h)]
  simp [zeros, List.drop_replicate]

/-- The bytes of a filled buffer. -/
theorem byteAt_filledBuffer {size : Nat} {v : List Byte} (h : v.length ≤ size) {i : Nat}
    (hi : i < v.length) : byteAt (filledBuffer size v) i = byteAt v i := by
  rw [filledBuffer_eq h, byteAt_append_left hi]

@[simp] theorem filledVector_toList (size : Nat) (v : List Byte) :
    (filledVector size v).toList = filledBuffer size v := rfl

/-! ### The parse -/

/-- The two legal flag bytes. -/
theorem legalEccFlag_iff (b : Byte) : legalEccFlag b = true ↔ b = 0xAA ∨ b = 0x55 := by
  simp [legalEccFlag]

/-- The payload of a candidate, with the numbers of the spec. -/
theorem framePayload_eq (b : List Byte) :
    framePayload b = bytesFrom b 12 (byteAt b 3).toNat := rfl

/-- The tag check of a candidate as an equation between byte sequences. -/
theorem frameFields_macOk_iff (key : Word) (b : List Byte) :
    (frameFields key b).macOk = true ↔
      bytesFrom b 8 4 = tag key (b.take 8 ++ zeros 4 ++ bytesFrom b 12 (byteAt b 3).toNat) :=
  beq_iff_eq

/-- All a parse can do: fail one check after passing those before it, or pass them all and answer the
fields. -/
theorem parse_cases (c : Config) (b : List Byte) :
    (b.length < 12 ∧ parse c b = .error .tooShort) ∨
    (12 ≤ b.length ∧ legalEccFlag (byteAt b 1) = false ∧ parse c b = .error .invalidEccFlag) ∨
    (12 ≤ b.length ∧ legalEccFlag (byteAt b 1) = true ∧ b.length < 12 + payloadLength b ∧
      parse c b = .error .tooShortForPayload) ∨
    (12 + payloadLength b ≤ b.length ∧ legalEccFlag (byteAt b 1) = true ∧ c.macVerify = true ∧
      (frameFields c.key b).macOk = false ∧ parse c b = .error .invalidMac) ∨
    (12 + payloadLength b ≤ b.length ∧ legalEccFlag (byteAt b 1) = true ∧
      (c.macVerify = true → (frameFields c.key b).macOk = true) ∧
      parse c b = .ok (frameFields c.key b)) := by
  by_cases h1 : b.length < 12
  · exact .inl ⟨h1, by simp [parse, h1]⟩
  by_cases h2 : legalEccFlag (byteAt b 1) = false
  · exact .inr (.inl ⟨by omega, h2, by simp [parse, h1, h2]⟩)
  have h2' : legalEccFlag (byteAt b 1) = true := by simpa using h2
  by_cases h3 : b.length < 12 + payloadLength b
  · exact .inr (.inr (.inl ⟨by omega, h2', h3, by simp [parse, h1, h2', h3]⟩))
  by_cases h4 : c.macVerify = true ∧ (frameFields c.key b).macOk = false
  · exact .inr (.inr (.inr (.inl ⟨by omega, h2', h4.1, h4.2, by
      unfold parse; rw [if_neg h1, if_neg h2, if_neg h3, if_pos h4]⟩)))
  · refine .inr (.inr (.inr (.inr ⟨by omega, h2', fun hv => ?_, by
      unfold parse; rw [if_neg h1, if_neg h2, if_neg h3, if_neg h4]⟩)))
    cases hm : (frameFields c.key b).macOk
    · exact absurd ⟨hv, hm⟩ h4
    · rfl

/-- A parse that answers a frame answers the fields of the candidate. -/
theorem parse_ok {c : Config} {b : List Byte} {f : Frame} (h : parse c b = .ok f) :
    f = frameFields c.key b ∧ 12 + payloadLength b ≤ b.length ∧ legalEccFlag (byteAt b 1) = true := by
  rcases parse_cases c b with ⟨-, e⟩ | ⟨-, -, e⟩ | ⟨-, -, -, e⟩ | ⟨-, -, -, -, e⟩ | ⟨h1, h2, -, e⟩ <;>
    rw [e] at h <;> cases h
  exact ⟨rfl, h1, h2⟩

/-- The received payload after a parse commits: the candidate's bytes from offset 12, then zeros. -/
theorem commitFrame_rxPayload_toList {c : Config} {b : List Byte} {f : Frame} (h : parse c b = .ok f)
    (r : Regs) : (r.commitFrame f).rxPayload.toList =
      bytesFrom b 12 (byteAt b 3).toNat ++ zeros (255 - (byteAt b 3).toNat) := by
  obtain ⟨rfl, h1, -⟩ := parse_ok h
  have hl : (bytesFrom b 12 (byteAt b 3).toNat).length = (byteAt b 3).toNat := bytesFrom_length h1
  have hb := (byteAt b 3).isLt
  show filledBuffer 255 (bytesFrom b 12 (byteAt b 3).toNat) = _
  rw [filledBuffer_eq (by omega), hl]

/-- The classifier reads the candidate's bytes from offset 12 on. -/
theorem replyByte_commitFrame {c : Config} {b : List Byte} {f : Frame} (h : parse c b = .ok f)
    (r : Regs) {i : Nat} (hi : i < (byteAt b 3).toNat) :
    replyByte (r.commitFrame f) i = byteAt b (12 + i) := by
  have h1 : 12 + (byteAt b 3).toNat ≤ b.length := (parse_ok h).2.1
  unfold replyByte
  rw [commitFrame_rxPayload_toList h, byteAt_append_left (by rw [bytesFrom_length h1]; exact hi),
    byteAt_bytesFrom _ hi]

/-! ### The tag -/

/-- A hash has eight words of four bytes. -/
theorem shaState_bytes_length (h : ShaState) : h.bytes.length = 32 := by
  simp [ShaState.bytes]

/-! ### The meanings -/

/-- `TXLEN` counts the bytes of a frame that a byte can count. -/
theorem frameLength_toNat {frame : List Byte} (h : frame.length ≤ 255) :
    (frameLength frame).toNat = frame.length := by
  rw [frameLength, if_pos (by omega), BitVec.toNat_ofNat]
  omega

/-- All ENCODE can do. -/
theorem execEncode_cases (origin : Byte) (ecc : Bool) (code : Byte) (payload : List Byte) (now : Word)
    (s : State) :
    (s.config.payloadMax.val < payload.length ∧
      execEncode origin ecc code payload now s = .next (s.raise .payloadTooLong)) ∨
    (payload.length ≤ s.config.payloadMax.val ∧ registered s.config origin = false ∧
      execEncode origin ecc code payload now s = .next (s.raise .unknownStation)) ∨
    (payload.length ≤ s.config.payloadMax.val ∧ registered s.config origin = true ∧
      execEncode origin ecc code payload now s = .next (s.complete
        (s.regs.holdFrame s.config (encodedFrame s.config.key origin ecc code payload now))
        (frameLength (encodedFrame s.config.key origin ecc code payload now) ::
          encodedFrame s.config.key origin ecc code payload now) [])) := by
  by_cases h : s.config.payloadMax.val < payload.length
  · exact .inl ⟨h, by simp [execEncode, h]⟩
  cases hr : registered s.config origin
  · exact .inr (.inl ⟨by omega, rfl, by simp [execEncode, h, hr]⟩)
  · exact .inr (.inr ⟨by omega, rfl, by simp [execEncode, h, hr]⟩)

/-- All DECODE can do. -/
theorem execDecode_cases (b : List Byte) (s : State) :
    (∃ e, parse s.config b = .error e ∧ execDecode b s = .next (s.raise e)) ∨
    (∃ f, parse s.config b = .ok f ∧
      execDecode b s = .next (s.complete (s.regs.commitFrame f) (frameResponse f) [])) := by
  unfold execDecode
  cases h : parse s.config b with
  | error e => exact .inl ⟨e, rfl, rfl⟩
  | ok f => exact .inr ⟨f, rfl, rfl⟩

/-- All RECEIVE can do. -/
theorem execReceive_cases (b : List Byte) (s : State) :
    (∃ e, parse s.config b = .error e ∧ execReceive b s = .next (s.raise e)) ∨
    (∃ f, parse s.config b = .ok f ∧ s.regs.wait = false ∧
      execReceive b s = .next (s.complete (s.regs.commitFrame f)
        (frameResponse f ++ [flagByte false, s.regs.status.byte]) [])) ∨
    (∃ f, parse s.config b = .ok f ∧ s.regs.wait = true ∧
      execReceive b s = .next (s.complete ((s.regs.commitFrame f).classify s.config)
        (frameResponse f ++ [flagByte true, ((s.regs.commitFrame f).classify s.config).status.byte])
        [.evt])) := by
  unfold execReceive
  cases h : parse s.config b with
  | error e => exact .inl ⟨e, rfl, rfl⟩
  | ok f =>
    cases hw : s.regs.wait
    · exact .inr (.inl ⟨f, rfl, rfl, by simp [State.receiveFrame, hw]⟩)
    · exact .inr (.inr ⟨f, rfl, rfl, by simp [State.receiveFrame, hw]⟩)

/-- All SEND can do. -/
theorem execSend_cases (s : State) :
    (s.regs.wait = true ∧ execSend s = .next (s.raise .busy)) ∨
    (s.regs.wait = false ∧ s.linkUp = false ∧ execSend s = .next (s.raise .notConnected)) ∨
    (s.regs.wait = false ∧ s.linkUp = true ∧ s.regs.txV = false ∧
      execSend s = .next (s.raise .queueEmpty)) ∨
    (s.regs.wait = false ∧ s.linkUp = true ∧ s.regs.txV = true ∧ s.txAccept = false ∧
      execSend s = .next (s.raise .transmitFailed)) ∨
    (s.regs.wait = false ∧ s.linkUp = true ∧ s.regs.txV = true ∧ s.txAccept = true ∧
      execSend s = .next (s.complete (s.regs.startCommand s.config) [byteAt s.regs.txBuf 2]
        [.txFrame (heldFrame s.regs), .txTrigger, .evt])) := by
  unfold execSend
  cases s.regs.wait <;> cases s.linkUp <;> cases s.regs.txV <;> cases s.txAccept <;> simp

/-- All the classifier can do, over registers that hold the reply. -/
theorem classify_cases (c : Config) (r : Regs) :
    (r.rxCode = c.ackCode ∧ r.classify c = Regs.classifyAck { r with wait := false }) ∨
    (r.rxCode ≠ c.ackCode ∧ r.rxCode = c.nackCode ∧
      r.classify c = Regs.classifyNack { r with wait := false }) ∨
    (r.rxCode ≠ c.ackCode ∧ r.rxCode ≠ c.nackCode ∧ r.rxCode = c.pingCode ∧
      r.classify c = Regs.classifyPing { r with wait := false }) ∨
    (r.rxCode ≠ c.ackCode ∧ r.rxCode ≠ c.nackCode ∧ r.rxCode ≠ c.pingCode ∧
      r.classify c = Regs.classifyOther { r with wait := false }) := by
  unfold Regs.classify
  by_cases h1 : r.rxCode = c.ackCode
  · exact .inl ⟨h1, if_pos h1⟩
  by_cases h2 : r.rxCode = c.nackCode
  · exact .inr (.inl ⟨h1, h2, (if_neg h1).trans (if_pos h2)⟩)
  by_cases h3 : r.rxCode = c.pingCode
  · exact .inr (.inr (.inl ⟨h1, h2, h3, (if_neg h1).trans ((if_neg h2).trans (if_pos h3))⟩))
  · exact .inr (.inr (.inr ⟨h1, h2, h3, (if_neg h1).trans ((if_neg h2).trans (if_neg h3))⟩))

/-- All TICK can do to the registers. -/
theorem tick_cases (c : Config) (r : Regs) :
    (r.wait = false ∧ r.tick c = r) ∨
    (r.wait = true ∧ (r.elapsed + 1).toNat ≤ c.timeoutS.val ∧
      r.tick c = { r with elapsed := r.elapsed + 1 }) ∨
    (r.wait = true ∧ c.timeoutS.val < (r.elapsed + 1).toNat ∧
      r.tick c = { r with elapsed := r.elapsed + 1, status := .noReply, wait := false }) := by
  unfold Regs.tick timedOut
  cases hw : r.wait
  · exact .inl ⟨rfl, by simp⟩
  by_cases h : c.timeoutS.val < (r.elapsed + 1).toNat
  · exact .inr (.inr ⟨rfl, h, by rw [if_pos rfl, if_pos (decide_eq_true h)]⟩)
  · exact .inr (.inl ⟨rfl, by omega, by rw [if_pos rfl, if_neg (by rw [decide_eq_false h]; exact Bool.false_ne_true)]⟩)

/-- All TICK can do. -/
theorem execTick_eq (s : State) :
    execTick s = .next (s.complete (s.regs.tick s.config)
      [(s.regs.tick s.config).status.byte, (s.regs.tick s.config).elapsed]
      (if s.regs.wait = true then [.evt] else [])) := rfl

/-- All ABORT can do. -/
theorem execAbort_cases (s : State) :
    (s.regs.txV = false ∧ execAbort s = .next (s.raise .queueEmpty)) ∨
    (s.regs.txV = true ∧ execAbort s = .next (s.complete (s.regs.clearTx s.config) [] [])) := by
  unfold execAbort
  cases s.regs.txV <;> simp

/-- All TAG can do. -/
theorem execTag_eq (b : List Byte) (s : State) :
    execTag b s = .next (s.complete s.regs (tag s.config.key b) []) := rfl

/-- Above the named registers the map gives the buffers. -/
theorem readMap_buffers (r : Regs) {addr : Half} (h : 0x00B < addr.toNat) :
    readMap r addr = readBuffers r addr.toNat := by
  unfold readMap
  generalize addr.toNat = n at h
  obtain ⟨k, rfl⟩ : ∃ k, n = k + 12 := ⟨n - 12, by omega⟩
  rfl

/-- All READ can do. -/
theorem execRead_cases (addr : Half) (s : State) :
    (readMap s.regs addr = none ∧ execRead addr s = .next (s.raise .illegalOp)) ∨
    (∃ v, readMap s.regs addr = some v ∧
      execRead addr s = .next (s.complete s.regs (bytes32 v) [])) := by
  unfold execRead
  cases h : readMap s.regs addr with
  | none => exact .inl ⟨rfl, rfl⟩
  | some v => exact .inr ⟨v, rfl, rfl⟩

/-! ### The step -/

/-- All a step can do: nothing, a reset, an illegal message, or an operation. -/
theorem step_cases (s : State) :
    (s.hostQueue = [] ∧ step s = .next s.idle) ∨
    (∃ rest, s.hostQueue = .reset :: rest ∧ step s = .next (s.takeReset rest)) ∨
    (∃ m l a rest e, s.hostQueue = .op m l a :: rest ∧ decodeMessage m = .error e ∧
      step s = .next ((s.takeOp l a rest).raise .illegalOp)) ∨
    (∃ m l a rest i, s.hostQueue = .op m l a :: rest ∧ decodeMessage m = .ok i ∧
      step s = exec i (s.takeOp l a rest)) := by
  unfold step
  match h : s.hostQueue with
  | [] => exact .inl ⟨rfl, rfl⟩
  | .reset :: rest => exact .inr (.inl ⟨rest, rfl, rfl⟩)
  | .op m l a :: rest =>
    cases hd : decodeMessage m with
    | error e => exact .inr (.inr (.inl ⟨m, l, a, rest, e, rfl, hd, by simp only [hd]⟩))
    | ok i => exact .inr (.inr (.inr ⟨m, l, a, rest, i, rfl, hd, by simp only [hd]⟩))

end Sys2Proof.Machine
end

