-- ==== Sys2Proof/Laws/PerInstr.lean ====
section
/-!
SUPPORT. The statements made per instruction: `MessageLength`, that the length the decoder works out from
the first bytes of a well-formed operation's message is the message's length (spec/30_encoding.md R92).
-/

namespace Sys2Proof.Laws

open Sys2Proof.Machine

/-- The message of a well-formed operation has the length its first bytes announce (R88, R92). -/
def MessageLength.Statement (i : Instr) : Prop :=
  i.wellFormed = true → messageLength (encodeMessage i) = some (encodeMessage i).length

/-- The length operand of an `F-BUF` message is the length of its input. -/
theorem be16_bytes16_length {input : List Byte} (h : input.length ≤ 65535) (op : Byte) :
    (be16At (encodeFBuf op input) 1).toNat = input.length := by
  show (be16 ((BitVec.ofNat 16 input.length).extractLsb' 8 8)
    ((BitVec.ofNat 16 input.length).extractLsb' 0 8)).toNat = _
  rw [be16_extract, BitVec.toNat_ofNat]
  omega

/-- The length of an `F-BUF` message. -/
theorem encodeFBuf_length (op : Byte) (input : List Byte) :
    (encodeFBuf op input).length = 3 + input.length := by
  simp [encodeFBuf]
  omega

theorem MessageLength.encode (origin : Byte) (ecc : Bool) (code : Byte) (payload : List Byte) (now : Word) :
    MessageLength.Statement (.encode origin ecc code payload now) := by
  intro h
  have hl : payload.length ≤ 255 := by simpa [Instr.wellFormed] using h
  show some (9 + (BitVec.ofNat 8 payload.length).toNat) = _
  rw [BitVec.toNat_ofNat, Nat.mod_eq_of_lt (by omega)]
  simp [encodeMessage]
  omega

theorem MessageLength.decode (input : List Byte) : MessageLength.Statement (.decode input) := by
  intro h
  have hl : input.length ≤ 65535 := by simpa [Instr.wellFormed] using h
  show some (3 + (be16At (encodeFBuf 0x02 input) 1).toNat) = some (encodeFBuf 0x02 input).length
  rw [be16_bytes16_length hl, encodeFBuf_length]

theorem MessageLength.receive (input : List Byte) : MessageLength.Statement (.receive input) := by
  intro h
  have hl : input.length ≤ 65535 := by simpa [Instr.wellFormed] using h
  show some (3 + (be16At (encodeFBuf 0x03 input) 1).toNat) = some (encodeFBuf 0x03 input).length
  rw [be16_bytes16_length hl, encodeFBuf_length]

theorem MessageLength.send : MessageLength.Statement .send := fun _ => rfl

theorem MessageLength.tick : MessageLength.Statement .tick := fun _ => rfl

theorem MessageLength.abort : MessageLength.Statement .abort := fun _ => rfl

theorem MessageLength.tag (input : List Byte) : MessageLength.Statement (.tag input) := by
  intro h
  have hl : input.length ≤ 65535 := by simpa [Instr.wellFormed] using h
  show some (3 + (be16At (encodeFBuf 0x07 input) 1).toNat) = some (encodeFBuf 0x07 input).length
  rw [be16_bytes16_length hl, encodeFBuf_length]

theorem MessageLength.read (addr : Half) : MessageLength.Statement (.read addr) := fun _ => rfl

end Sys2Proof.Laws
end

