-- ==== Sys2Proof/Tests/Slice0.lean ====
section
/-!
SUPPORT. Tests.  Expected results come from spec/95_test_vectors.md (the vector's id stands in the
docstring) or, where a rule is named, from the rule itself.  After them, one witness for the hypotheses of
each statement that has some.
-/

namespace Sys2Proof.Tests

open Sys2Proof Sys2Proof.Machine

/-! ### Configurations and states of the vectors -/

/-- Configuration E1. -/
def e1 : Config :=
  { key := 0x12345678, stations := [0x01, 0x02], timeoutS := 5, ackCode := 0xF0, nackCode := 0xF1
    pingCode := 0xF2, macVerify := false, payloadMax := 98 }

/-- Configuration E2: E1 with `MAC_VERIFY`. -/
def e2 : Config := { e1 with macVerify := true }

/-- Reset, under a configuration, with the link up and the transport accepting. -/
def fresh (c : Config) : State :=
  { State.reset with regs := Regs.reset c, config := c, linkUp := true, txAccept := true }

/-- The frame of ENC-1. -/
def frame1 : List Byte :=
  [0x01, 0x55, 0x05, 0x02, 0x65, 0x53, 0xF1, 0x00, 0xEA, 0xDD, 0x52, 0xC4, 0x0A, 0xC8]

/-- After ENC-1. -/
def held (c : Config) : State :=
  { fresh c with regs := (Regs.reset c).holdFrame c frame1 }

/-- State W: after ENC-1 and SEND, with the elapsed time given. -/
def waiting (c : Config) (elapsed : Byte) : State :=
  { fresh c with
    regs := { Regs.reset c with wait := true, status := .waiting, elapsed := elapsed, lastCode := 0x05 } }

/-- A reply from origin `0x80`, ECC off, at 1700000003 (section 2 of the vectors). -/
def reply (code : Byte) (mac payload : List Byte) : List Byte :=
  [0x80, 0x55, code, BitVec.ofNat 8 payload.length, 0x65, 0x53, 0xF1, 0x03] ++ mac ++ payload

/-- The state an outcome answers, or the one given. -/
def nextOr (o : Host.Outcome State Fault Refusal) (d : State) : State :=
  match o with
  | .next s => s
  | .fault _ => d
  | .refused _ => d

/-- What the block puts out when the host issues a message in a state. -/
def outputs (s : State) (m : List Byte) : Option (List Byte) × List Event :=
  let t := nextOr (step { s with hostQueue := [.op m s.linkUp s.txAccept] }) s
  (t.response, t.events)

/-- The registers after that. -/
def regsAfter (s : State) (m : List Byte) : Regs :=
  (nextOr (step { s with hostQueue := [.op m s.linkUp s.txAccept] }) s).regs

/-! ### Well-formedness -/

/-- The `len` operand is one byte (R89). -/
theorem test_encode_payload_too_long_is_ill_formed :
    (Instr.encode 1 false 5 (List.replicate 256 0) 0).wellFormed = false := by decide +kernel

/-- The `n` operand is two bytes (R89), for each `F-BUF` operation. -/
theorem test_input_too_long_is_ill_formed (i : Instr)
    (h : i = .decode (List.replicate 65536 0) ∨ i = .receive (List.replicate 65536 0) ∨
      i = .tag (List.replicate 65536 0)) : i.wellFormed = false := by
  rcases h with rfl | rfl | rfl <;>
    · show decide ((List.replicate 65536 (0 : Byte)).length ≤ 65535) = false
      rw [List.length_replicate]
      decide

/-! ### Decoding -/

/-- `F-ENC`: ENC-1. -/
theorem test_decode_enc : decodeMessage [0x01, 0x01, 0x00, 0x05, 0x02, 0x65, 0x53, 0xF1, 0x00, 0x0A, 0xC8] =
    .ok (.encode 0x01 false 0x05 [0x0A, 0xC8] 0x6553F100) := by decide

/-- `F-BUF`: the three operation codes (R90), `n` big-endian (R87). -/
theorem test_decode_buf :
    decodeMessage [0x02, 0x00, 0x02, 0xAA, 0x55] = .ok (.decode [0xAA, 0x55]) ∧
      decodeMessage [0x03, 0x00, 0x02, 0xAA, 0x55] = .ok (.receive [0xAA, 0x55]) ∧
      decodeMessage [0x07, 0x00, 0x02, 0xAA, 0x55] = .ok (.tag [0xAA, 0x55]) := by decide

/-- `F-NONE` (R90). -/
theorem test_decode_none : decodeMessage [0x04] = .ok .send ∧ decodeMessage [0x05] = .ok .tick ∧
    decodeMessage [0x06] = .ok .abort := by decide

/-- `F-ADDR`: RD-3. -/
theorem test_decode_addr : decodeMessage [0x08, 0x01, 0x08] = .ok (.read 0x108) := by decide

/-- ENC-11, ENC-12, SND-8, ILL-1 to ILL-6, each rejected by name. -/
theorem test_decode_rejects :
    decodeMessage [0x01, 0x01, 0x02, 0x05, 0x00, 0x65, 0x53, 0xF1, 0x00] = .error .badEccOperand ∧
      decodeMessage [0x01, 0x01, 0x00, 0x05, 0x02, 0x65, 0x53, 0xF1, 0x00, 0x0A] = .error .wrongLength ∧
      decodeMessage [0x04, 0x00] = .error .wrongLength ∧
      decodeMessage [0x00] = .error .reservedOp ∧ decodeMessage [0x09] = .error .reservedOp ∧
      decodeMessage [0xFF] = .error .reservedOp ∧ decodeMessage [] = .error .emptyMessage ∧
      decodeMessage [0x02, 0x00, 0x03, 0x01, 0x02] = .error .wrongLength ∧
      decodeMessage [0x08, 0x00] = .error .wrongLength := by decide

/-- Every row of the opcode table, with its operand bytes zero. -/
theorem test_table_rows :
    decodeTableWord 8 1 = some (.encode 0 false 0 [] 0) ∧ decodeTableWord 8 2 = some (.decode []) ∧
      decodeTableWord 8 3 = some (.receive []) ∧ decodeTableWord 8 4 = some .send ∧
      decodeTableWord 8 5 = some .tick ∧ decodeTableWord 8 6 = some .abort ∧
      decodeTableWord 8 7 = some (.tag []) ∧ decodeTableWord 8 8 = some (.read 0) ∧
      decodeTableWord 8 0 = none ∧ decodeTableWord 8 9 = none := by decide

/-- A table word placed after reset is the operation the next step runs. -/
theorem test_fetch_word_runs :
    step (State.reset.withFetchWord 8 8) = exec (.read 0) State.reset := rfl

/-- After reset each row's word runs and answers: ENCODE of origin `0x00` UnknownStation (R118), DECODE and
RECEIVE of no bytes TooShort (R141), SEND with the link down NotConnected (R203). -/
theorem test_table_rows_run :
    [1, 2, 3, 4].map (fun w => (nextOr (step (State.reset.withFetchWord 8 w)) State.reset).response) =
      [some [0x02], some [0x03], some [0x03], some [0x08]] := by decide +kernel

/-! ### Assembler -/

/-- The syntax of ENC-1 and its message; a list, an address and a pseudo-operation (R94, R95). -/
theorem test_assemble :
    assemble [] "ENCODE 0x01, OFF, 0x05, [0x0A, 0xC8], 1700000000".toList =
        some [[0x01, 0x01, 0x00, 0x05, 0x02, 0x65, 0x53, 0xF1, 0x00, 0x0A, 0xC8]] ∧
      assemble [] "TAG []".toList = some [[0x07, 0x00, 0x00]] ∧
      assemble [] "READ 0x16D".toList = some [[0x08, 0x01, 0x6D]] ∧
      assemble [] "TICK_N 3".toList = some [[0x05], [0x05], [0x05]] ∧
      assemble [0x00, 0x02, 0xAA, 0x01] "LOOPBACK".toList = some [[0x02, 0x00, 0x02, 0xAA, 0x01]] ∧
      assemble [] "DECODE [256]".toList = none := by decide +kernel

/-! ### SHA-256 and the tag -/

/-- `SHA256("abc")` (R174). -/
theorem test_sha256_abc : sha256 [0x61, 0x62, 0x63] =
    bytes32 0xba7816bf ++ bytes32 0x8f01cfea ++ bytes32 0x414140de ++ bytes32 0x5dae2223 ++
      bytes32 0xb00361a3 ++ bytes32 0x96177a9c ++ bytes32 0xb410ff61 ++ bytes32 0xf20015ad := by
  decide +kernel

/-- The 56-byte example, which pads to two blocks (section 5). -/
theorem test_sha256_two_blocks :
    sha256 [0x61, 0x62, 0x63, 0x64, 0x62, 0x63, 0x64, 0x65, 0x63, 0x64, 0x65, 0x66, 0x64, 0x65, 0x66, 0x67,
      0x65, 0x66, 0x67, 0x68, 0x66, 0x67, 0x68, 0x69, 0x67, 0x68, 0x69, 0x6a, 0x68, 0x69, 0x6a, 0x6b,
      0x69, 0x6a, 0x6b, 0x6c, 0x6a, 0x6b, 0x6c, 0x6d, 0x6b, 0x6c, 0x6d, 0x6e, 0x6c, 0x6d, 0x6e, 0x6f,
      0x6d, 0x6e, 0x6f, 0x70, 0x6e, 0x6f, 0x70, 0x71] =
    bytes32 0x248d6a61 ++ bytes32 0xd20638b8 ++ bytes32 0xe5c02693 ++ bytes32 0x0c3e6039 ++
      bytes32 0xa33ce459 ++ bytes32 0x64ff2167 ++ bytes32 0xf6ecedd4 ++ bytes32 0x19db06c1 := by
  decide +kernel

/-- TAG-1: the empty message. -/
theorem test_tag_empty :
    outputs (fresh e1) [0x07, 0x00, 0x00] = (some [0x00, 0xB6, 0xE1, 0x9C, 0x2F], []) := by decide +kernel

/-- TAG-5: a frame as sent. -/
theorem test_tag_frame :
    outputs (fresh e1) ([0x07, 0x00, 0x0E] ++ frame1) = (some [0x00, 0x98, 0xDA, 0x60, 0x61], []) := by
  decide +kernel

/-! ### ENCODE, DECODE -/

/-- ENC-1: response and held frame. -/
theorem test_encode_variable_change :
    let m := [0x01, 0x01, 0x00, 0x05, 0x02, 0x65, 0x53, 0xF1, 0x00, 0x0A, 0xC8]
    outputs (fresh e1) m = (some ([0x00, 0x0E] ++ frame1), []) ∧
      (regsAfter (fresh e1) m).txBuf = frame1 ++ zeros 96 ∧
      (regsAfter (fresh e1) m).txLen = 14 ∧ (regsAfter (fresh e1) m).txV = true := by
  decide +kernel

/-- ENC-5: origin `0x00` is never registered, even where the list holds it; R111: one byte over `PAYLOAD_MAX`, under
a `PAYLOAD_MAX` of 1. -/
theorem test_encode_refusals :
    outputs (fresh { e1 with stations := [0x00, 0x01] }) [0x01, 0x00, 0x00, 0x05, 0x00, 0x65, 0x53, 0xF1, 0x00] =
        (some [0x02], []) ∧
      outputs (fresh { e1 with payloadMax := 1 })
        [0x01, 0x01, 0x00, 0x05, 0x02, 0x65, 0x53, 0xF1, 0x00, 0x0A, 0xC8] = (some [0x01], []) := by decide +kernel

/-- DEC-10: 17 bytes with a zero tag, then three bytes that are ignored. -/
theorem test_decode_trailing :
    let m := [0x02, 0x00, 0x14, 0x01, 0xAA, 0x05, 0x05, 0, 0, 0, 0, 0, 0, 0, 0, 1, 2, 3, 4, 5, 0xEE, 0xEE, 0xEE]
    outputs (fresh e1) m =
        (some [0x00, 0x01, 0xAA, 0x05, 0x05, 0, 0, 0, 0, 0, 0, 0, 0, 0x00, 1, 2, 3, 4, 5], []) ∧
      (regsAfter (fresh e1) m).rxEcc = true ∧ (regsAfter (fresh e1) m).rxLen = 5 ∧
      (regsAfter (fresh e1) m).rxPayload.toList = [1, 2, 3, 4, 5] ++ zeros 250 := by
  decide +kernel

/-- DEC-13, DEC-14: with `MAC_VERIFY` a flipped tag bit fails, the right tag passes. -/
theorem test_decode_mac_verify :
    outputs (fresh e2)
        [0x02, 0x00, 0x0E, 0x01, 0x55, 0x05, 0x02, 0x65, 0x53, 0xF1, 0x00, 0xEA, 0xDD, 0x52, 0xC5, 0x0A, 0xC8] =
        (some [0x06], []) ∧
      outputs (fresh e2) ([0x02, 0x00, 0x0E] ++ frame1) =
        (some [0x00, 0x01, 0x55, 0x05, 0x02, 0x65, 0x53, 0xF1, 0x00, 0xEA, 0xDD, 0x52, 0xC4, 0x01, 0x0A, 0xC8], []) := by
  decide +kernel

/-! ### SEND, RECEIVE, TICK, ABORT, READ -/

/-- SND-1. -/
theorem test_send :
    outputs (held e1) [0x04] = (some [0x00, 0x05], [.txFrame frame1, .txTrigger, .evt]) ∧
      (regsAfter (held e1) [0x04]).wait = true ∧ (regsAfter (held e1) [0x04]).txV = false ∧
      (regsAfter (held e1) [0x04]).txBuf = zeros 110 ∧ (regsAfter (held e1) [0x04]).lastCode = 0x05 := by
  decide +kernel

/-- SND-7: the link is checked before the buffer. -/
theorem test_send_link_down :
    outputs { fresh e1 with linkUp := false } [0x04] = (some [0x08], []) := by decide +kernel

/-- RCV-5: a NACK with error code -3. -/
theorem test_receive_nack :
    let m := [0x03, 0x00, 0x0E] ++ reply 0xF1 [0xB8, 0xFD, 0x19, 0xF2] [0x05, 0xFD]
    outputs (waiting e1 0) m =
        (some [0x00, 0x80, 0x55, 0xF1, 0x02, 0x65, 0x53, 0xF1, 0x03, 0xB8, 0xFD, 0x19, 0xF2, 0x01, 0x05, 0xFD,
          0x01, 0x04], [.evt]) ∧
      (regsAfter (waiting e1 0) m).nackReq = 0x05 ∧ nackErrValue (regsAfter (waiting e1 0) m) = -3 ∧
      (regsAfter (waiting e1 0) m).wait = false := by
  decide +kernel

/-- RCV-8: the three words of a ping reply. -/
theorem test_receive_ping :
    let m := [0x03, 0x00, 0x18] ++ reply 0xF2 [0xA5, 0x3A, 0x73, 0x96]
      [0xC2, 0xC8, 0x00, 0x00, 0x40, 0xF0, 0x00, 0x00, 0xC4, 0x9C, 0x40, 0x00]
    let r := regsAfter (waiting e1 0) m
    r.status = .acked ∧ r.ackSrc = true ∧ r.pingV = true ∧ r.pingRssi = 0xC2C80000 ∧
      r.pingSnr = 0x40F00000 ∧ r.pingFshift = 0xC49C4000 ∧ r.rxMacOk = true := by
  decide +kernel

/-- TCK-5 and TCK-6: with `TIMEOUT_S = 5` the fifth TICK still waits and the sixth times out. -/
theorem test_tick_timeout :
    outputs (waiting e1 4) [0x05] = (some [0x00, 0x01, 0x05], [.evt]) ∧
      outputs (waiting e1 5) [0x05] = (some [0x00, 0x06, 0x06], [.evt]) ∧
      (regsAfter (waiting e1 5) [0x05]).wait = false := by decide +kernel

/-- TCK-8: nothing waits after reset. -/
theorem test_tick_idle : outputs (fresh e1) [0x05] = (some [0x00, 0x00, 0x00], []) := by decide +kernel

/-- ABT-1 and ABT-2. -/
theorem test_abort :
    outputs (held e1) [0x06] = (some [0x00], []) ∧ (regsAfter (held e1) [0x06]).txV = false ∧
      outputs (fresh e1) [0x06] = (some [0x07], []) := by decide +kernel

/-- RD-2 (CTRLSTAT while waiting), RD-3 (the first tag byte), RD-4 (past the frame), RD-7 (`TXLEN`), P2 step 15
(NACK), and CTRLSTAT's bits 5, 7, 9:8 and 12 by R41. -/
theorem test_read :
    outputs (waiting e1 0) [0x08, 0x00, 0x00] = (some [0x00, 0x00, 0x00, 0x00, 0x09], []) ∧
      outputs (held e1) [0x08, 0x01, 0x08] = (some [0x00, 0x00, 0x00, 0x00, 0xEA], []) ∧
      outputs (held e1) [0x08, 0x01, 0x6D] = (some [0x00, 0x00, 0x00, 0x00, 0x00], []) ∧
      outputs (held e1) [0x08, 0x00, 0x03] = (some [0x00, 0x00, 0x00, 0x00, 0x0E], []) ∧
      readMap { Regs.reset e1 with nackReq := 0x07, nackErr := 0xFD } 0x004 = some 0x0000FD07 ∧
      readMap { Regs.reset e1 with ackSrc := true, pingV := true, diag := .malformedPing, rxEcc := true } 0x000 =
        some 0x000013A0 := by
  decide +kernel

/-- RD-5, RD-6, the first address past `TXBUF` (R241), and the same address under a `PAYLOAD_MAX` of 99. -/
theorem test_read_unmapped :
    outputs (fresh e1) [0x08, 0x00, 0x0C] = (some [0x0B], []) ∧
      outputs (fresh e1) [0x08, 0x02, 0xFF] = (some [0x0B], []) ∧
      outputs (fresh e1) [0x08, 0x01, 0x6E] = (some [0x0B], []) ∧
      outputs (fresh { e1 with payloadMax := 99 }) [0x08, 0x01, 0x6E] = (some [0x00, 0, 0, 0, 0], []) := by decide +kernel

/-! ### Witnesses: a concrete instance that meets the hypotheses of each statement that has some -/

/-- A matching ACK, its code and payload length (RCV-1). -/
def ack : List Byte := reply 0xF0 [0xDD, 0xF5, 0x46, 0x93] [0x05]

/-- Acceptability is a check on the bytes. -/
theorem acceptable_of (c : Config) (b : List Byte)
    (h : 12 ≤ b.length ∧ (byteAt b 1 = 0xAA ∨ byteAt b 1 = 0x55) ∧ 12 + (byteAt b 3).toNat ≤ b.length ∧
      bytesFrom b 8 4 = tag c.key (b.take 8 ++ zeros 4 ++ bytesFrom b 12 (byteAt b 3).toNat)) :
    Acceptable c b := ⟨h.1, h.2.1, h.2.2.1, fun _ => h.2.2.2⟩

/-- Without `MAC_VERIFY` the tag is not asked for. -/
theorem acceptable_unchecked (c : Config) (b : List Byte) (hc : c.macVerify = false)
    (h : 12 ≤ b.length ∧ (byteAt b 1 = 0xAA ∨ byteAt b 1 = 0x55) ∧ 12 + (byteAt b 3).toNat ≤ b.length) :
    Acceptable c b := ⟨h.1, h.2.1, h.2.2, fun hv => by rw [hc] at hv; cases hv⟩

theorem witness_EncodedOperationDecodesToItself :
    (Instr.encode 1 true 5 (List.replicate 255 0) 0).wellFormed = true ∧
      (Instr.decode []).wellFormed = true := by decide +kernel

theorem witness_DecodedMessageEncodesToItself :
    decodeMessage [0x08, 0x02, 0xFE] = .ok (.read 0x2FE) := by decide

/-- One message for each way to be illegal, at the bounds of its range. -/
theorem witness_IllegalMessagesRaiseIllegalOp :
    (byteAt [0x00] 0).toNat = 0 ∧ 9 ≤ (byteAt [0x09] 0).toNat ∧
      ((byteAt [0x01, 0, 0, 0] 0).toNat = 1 ∧ [(0x01 : Byte), 0, 0, 0].length < 5) ∧
      ((byteAt [0x02, 0] 0).toNat = 2 ∧ [(0x02 : Byte), 0].length < 3) ∧
      ((byteAt [0x06, 0] 0).toNat = 6 ∧ [(0x06 : Byte), 0].length ≠ 1) ∧
      ((byteAt [0x08, 0] 0).toNat = 8 ∧ [(0x08 : Byte), 0].length ≠ 3) ∧
      ((byteAt [0x01, 0, 2, 0, 0, 0, 0, 0, 0] 0).toNat = 1 ∧
        byteAt [0x01, 0, 2, 0, 0, 0, 0, 0, 0] 2 ≠ 0x00 ∧ byteAt [0x01, 0, 2, 0, 0, 0, 0, 0, 0] 2 ≠ 0x01) ∧
      ({ fresh e1 with hostQueue := [.op [0x09] true true] } : State).hostQueue =
        .op [0x09] true true :: [] := by decide

theorem witness_StepRunsTheDecodedOperation :
    ({ fresh e1 with hostQueue := [.op [0x04] true false, .reset] } : State).hostQueue =
        .op [0x04] true false :: [.reset] ∧
      decodeMessage [0x04] = .ok .send ∧ Instr.send.wellFormed = true := by decide

theorem witness_IdleStepHoldsTheRegisters : (waiting e1 3).hostQueue = [] := rfl

theorem witness_ResetClearsEveryRegister :
    (waiting e1 3).config.payloadMax.val = 98 ∧
    ({ waiting e1 3 with hostQueue := [.reset, .op [0x05] true true] } : State).hostQueue =
      .reset :: [.op [0x05] true true] := ⟨rfl, rfl⟩

theorem witness_ReplyAfterResetIsNotClassified :
    ack.length ≤ 65535 ∧ Acceptable (waiting e1 2).config ack ∧
      ({ waiting e1 2 with hostQueue := [.reset, .op (encodeMessage (.receive ack)) true true] } : State).hostQueue =
        .reset :: .op (encodeMessage (.receive ack)) true true :: [] :=
  ⟨by decide, acceptable_unchecked _ _ rfl (by decide), rfl⟩

/-- The longest payload a `PAYLOAD_MAX` of 255 takes. -/
theorem witness_longest_payload :
    (zeros 255).length ≤ (fresh { e1 with payloadMax := 255 }).config.payloadMax.val ∧ (0x02 : Byte) ≠ 0x00 ∧
      (0x02 : Byte) ∈ (fresh { e1 with payloadMax := 255 }).config.stations := by decide +kernel

/-- The longest payload, and the longest whose frame a byte can count, under a `PAYLOAD_MAX` that takes it. -/
theorem witness_EncodeHoldsTheTaggedFrame :
    (12 + (zeros 243).length ≤ 255 ∧
      (zeros 243).length ≤ (fresh { e1 with payloadMax := 243 }).config.payloadMax.val) ∧
    (zeros 98).length ≤ (held e1).config.payloadMax.val ∧ (0x02 : Byte) ≠ 0x00 ∧ (0x02 : Byte) ∈ (held e1).config.stations := by
  decide +kernel

theorem witness_EncodeRefusesLongPayloadsAndUnknownStations :
    (held e1).config.payloadMax.val < (zeros 99).length ∧
      (zeros 98).length ≤ (held e1).config.payloadMax.val ∧ (0x03 : Byte) ∉ (held e1).config.stations := by decide

/-- A candidate for each failing check: 11 bytes; 12 bytes with a bad flag; 16 bytes announcing 5 of
payload; a wrong tag under E2 (DEC-4, DEC-5, DEC-8, DEC-13). -/
theorem witness_FailedParseLeavesNoTrace :
    (zeros 11).length < 12 ∧
      (12 ≤ (zeros 12).length ∧ ¬(byteAt (zeros 12) 1 = 0xAA ∨ byteAt (zeros 12) 1 = 0x55)) ∧
      (let b := [0x01, 0xAA, 0x05, 0x05] ++ zeros 12;
        12 ≤ b.length ∧ byteAt b 1 = 0xAA ∧ b.length < 12 + (byteAt b 3).toNat) ∧
      (let b := reply 0xF0 [0xDD, 0xF5, 0x46, 0x92] [0x05];
        12 + (byteAt b 3).toNat ≤ b.length ∧ byteAt b 1 = 0x55 ∧ (waiting e2 0).config.macVerify = true ∧
        bytesFrom b 8 4 ≠ tag (waiting e2 0).config.key
          (b.take 8 ++ zeros 4 ++ bytesFrom b 12 (byteAt b 3).toNat)) := by decide +kernel

/-- With `MAC_VERIFY` and the right tag. -/
theorem witness_acceptable_verified : Acceptable (waiting e2 0).config ack :=
  acceptable_of _ _ (by decide +kernel)

/-- DEC-7 (no payload, 12 bytes) and a 255-byte payload, the ends of the range of `payload_length`. -/
theorem witness_DecodeCommitsTheFrame :
    Acceptable (fresh e1).config ([0x01, 0x55, 0x05, 0x00] ++ zeros 8) ∧
      Acceptable (fresh e1).config ([0x01, 0xAA, 0x05, 0xFF] ++ zeros 263) ∧
      ¬Acceptable (fresh e1).config (zeros 11) :=
  ⟨acceptable_unchecked _ _ rfl (by decide), acceptable_unchecked _ _ rfl (by decide +kernel),
    fun h => absurd h.1 (by decide)⟩

theorem witness_TrailingBytesAreIgnored :
    Acceptable (fresh e1).config ([0x01, 0x55, 0x05, 0x00] ++ zeros 8) :=
  acceptable_unchecked _ _ rfl (by decide)

theorem witness_DecodeReturnsWhatEncodeBuilt :
    (zeros 98).length ≤ (fresh e2).config.payloadMax.val ∧ (0x01 : Byte) ≠ 0x00 ∧ (0x01 : Byte) ∈ (fresh e2).config.stations ∧
      (waiting e2 1).config = (fresh e2).config := by decide

theorem witness_MessageScheduleRecurrence : (zeros 64).length = 64 := by decide

theorem witness_SendTransmitsAndStartsTheTimer :
    (held e1).regs.wait = false ∧ (held e1).linkUp = true ∧ (held e1).regs.txV = true ∧
      (held e1).txAccept = true := by decide

/-- One state for each refusal. -/
theorem witness_SendRefusalsInOrder :
    (waiting e1 0).regs.wait = true ∧
      ((held e1).regs.wait = false ∧ ({ held e1 with linkUp := false } : State).linkUp = false) ∧
      ((fresh e1).regs.wait = false ∧ (fresh e1).linkUp = true ∧ (fresh e1).regs.txV = false) ∧
      ((held e1).linkUp = true ∧ (held e1).regs.txV = true ∧
        ({ held e1 with txAccept := false } : State).txAccept = false) := by decide

theorem witness_SendTransmitsTheEncodedFrame :
    [(0x0A : Byte), 0xC8].length ≤ (fresh e1).config.payloadMax.val ∧ 12 + [(0x0A : Byte), 0xC8].length ≤ 255 ∧ (0x01 : Byte) ≠ 0x00 ∧ (0x01 : Byte) ∈ (fresh e1).config.stations ∧
      (fresh e1).regs.wait = false ∧ (fresh e1).linkUp = true ∧ (fresh e1).txAccept = true := by decide

theorem witness_ReceiveWithoutCommandOnlyReceives :
    Acceptable (fresh e1).config ack ∧ (fresh e1).regs.wait = false :=
  ⟨acceptable_unchecked _ _ rfl (by decide), rfl⟩

theorem witness_MatchingAckResolvesTheCommand :
    Acceptable (waiting e1 2).config ack ∧ (waiting e1 2).regs.wait = true ∧
      byteAt ack 2 = (waiting e1 2).config.ackCode ∧ byteAt ack 3 = 1 ∧
      byteAt ack 12 = (waiting e1 2).regs.lastCode :=
  ⟨acceptable_unchecked _ _ rfl (by decide), rfl, rfl, rfl, rfl⟩

/-- An ACK of another code, and one of two bytes whose first matches (RCV-2, RCV-4). -/
theorem witness_OtherAckIsInvalid :
    (Acceptable (waiting e1 0).config (reply 0xF0 (zeros 4) [0x06]) ∧
        byteAt (reply 0xF0 (zeros 4) [0x06]) 12 ≠ (waiting e1 0).regs.lastCode) ∧
      (Acceptable (waiting e1 0).config (reply 0xF0 (zeros 4) [0x05, 0x05]) ∧
        byteAt (reply 0xF0 (zeros 4) [0x05, 0x05]) 3 ≠ 1) ∧
      (waiting e1 0).regs.wait = true ∧ (waiting e1 0).config.ackCode = 0xF0 :=
  ⟨⟨acceptable_unchecked _ _ rfl (by decide), by decide⟩,
    ⟨acceptable_unchecked _ _ rfl (by decide), by decide⟩, rfl, rfl⟩

/-- A NACK of two bytes and one of one byte (RCV-6, RCV-7). -/
theorem witness_NackResolvesTheCommand :
    (Acceptable (waiting e1 0).config (reply 0xF1 (zeros 4) [0x77, 0x80]) ∧
        byteAt (reply 0xF1 (zeros 4) [0x77, 0x80]) 3 = 2) ∧
      (Acceptable (waiting e1 0).config (reply 0xF1 (zeros 4) [0x05]) ∧
        byteAt (reply 0xF1 (zeros 4) [0x05]) 3 ≠ 2) ∧
      (waiting e1 0).regs.wait = true ∧ (waiting e1 0).config.nackCode = 0xF1 ∧
      (0xF1 : Byte) ≠ (waiting e1 0).config.ackCode :=
  ⟨⟨acceptable_unchecked _ _ rfl (by decide), rfl⟩,
    ⟨acceptable_unchecked _ _ rfl (by decide), by decide⟩, rfl, rfl, by decide⟩

/-- A ping reply of 12 bytes and one of 11 (RCV-8, RCV-9). -/
theorem witness_PingReplyResolvesTheCommand :
    (Acceptable (waiting e1 0).config (reply 0xF2 (zeros 4) (zeros 12)) ∧
        byteAt (reply 0xF2 (zeros 4) (zeros 12)) 3 = 12) ∧
      (Acceptable (waiting e1 0).config (reply 0xF2 (zeros 4) (zeros 11)) ∧
        byteAt (reply 0xF2 (zeros 4) (zeros 11)) 3 ≠ 12) ∧
      (waiting e1 0).regs.wait = true ∧ (waiting e1 0).config.pingCode = 0xF2 ∧
      (0xF2 : Byte) ≠ (waiting e1 0).config.ackCode ∧ (0xF2 : Byte) ≠ (waiting e1 0).config.nackCode :=
  ⟨⟨acceptable_unchecked _ _ rfl (by decide), rfl⟩,
    ⟨acceptable_unchecked _ _ rfl (by decide), by decide⟩, rfl, rfl, by decide, by decide⟩

/-- The echo of a TEC code as reply code (RCV-10). -/
theorem witness_OtherReplyIsUnexpected :
    Acceptable (waiting e1 0).config (reply 0x05 (zeros 4) []) ∧ (waiting e1 0).regs.wait = true ∧
      (0x05 : Byte) ≠ (waiting e1 0).config.ackCode ∧ (0x05 : Byte) ≠ (waiting e1 0).config.nackCode ∧
      (0x05 : Byte) ≠ (waiting e1 0).config.pingCode :=
  ⟨acceptable_unchecked _ _ rfl (by decide), rfl, by decide, by decide, by decide⟩

/-- The last TICK that waits and the first that times out. -/
theorem witness_TickCountsAndTimesOut :
    (waiting e1 5).regs.wait = true ∧ (waiting e1 4).regs.wait = true ∧
      (waiting e1 5).config.timeoutS.val < ((waiting e1 5).regs.elapsed + 1).toNat ∧
      ((waiting e1 4).regs.elapsed + 1).toNat ≤ (waiting e1 4).config.timeoutS.val := by decide

theorem witness_TickWithoutCommandChangesNothing : (fresh e1).regs.wait = false := rfl

/-- `k` at `TIMEOUT_S` and one more. -/
theorem witness_TimeoutFiresOnItsTick :
    (waiting e1 0).regs.wait = true ∧ (waiting e1 0).regs.status = .waiting ∧
      (waiting e1 0).regs.elapsed = 0 ∧
      ({ waiting e1 0 with hostQueue := List.replicate 5 (.op [0x05] true true) } : State).hostQueue =
        List.replicate 5 (.op [0x05] true true) ∧
      5 ≤ (waiting e1 0).config.timeoutS.val ∧ (waiting e1 0).config.timeoutS.val < 6 := by decide

theorem witness_FirstOfReplyAndTimeoutWins :
    Acceptable (waiting e1 5).config ack ∧ (waiting e1 5).regs.wait = true ∧
      (waiting e1 5).regs.elapsed.toNat = (waiting e1 5).config.timeoutS.val ∧
      byteAt ack 2 = (waiting e1 5).config.ackCode ∧ byteAt ack 3 = 1 ∧
      byteAt ack 12 = (waiting e1 5).regs.lastCode :=
  ⟨acceptable_unchecked _ _ rfl (by decide), rfl, rfl, rfl, rfl, rfl⟩

theorem witness_AbortDropsOnlyTheHeldFrame :
    (held e1).regs.txV = true ∧ (fresh e1).regs.txV = false := by decide

theorem witness_ReadAnswersTheMappedWord : readMap (held e1).regs 0x003 = some 14 := by decide

/-- The last entry, entry 255 under a `PAYLOAD_MAX` of 255, and the first address past the entries. -/
theorem witness_TransmitBufferIsMappedByItsSize :
    109 < (held e1).regs.txBuf.length ∧ (held e1).regs.txBuf.length = 110 ∧
      255 < (fresh { e1 with payloadMax := 255 }).regs.txBuf.length ∧
      (0x100 + (held e1).regs.txBuf.length ≤ (0x16E : Half).toNat ∧ (0x1FF : Half).toNat < 0x200) := by
  decide +kernel

/-- ABORT with nothing held. -/
theorem witness_PayloadCeilingReachesOnlyTheTransmitBuffer :
    (Instr.abort = .send ∨ Instr.abort = .abort) ∧ (waiting e1 0).regs.txV = false := by decide

/-- An address in each gap of the map, at its bounds. -/
theorem witness_ReadOutsideTheMapIsIllegal :
    (0x00B < (0x00C : Half).toNat ∧ (0x0FF : Half).toNat < 0x100) ∧
      (0x100 + (held e1).regs.txBuf.length ≤ (0x16E : Half).toNat ∧ (0x1FF : Half).toNat < 0x200) ∧
      0x2FE < (0x2FF : Half).toNat ∧ 0x2FE < (0xFFFF : Half).toNat := by decide

/-- SEND refused as Busy: a next state whose response is an error. -/
theorem witness_EachOperationRaisesOnlyItsErrors :
    exec .send (waiting e1 0) = .next ((waiting e1 0).raise .busy) ∧
      ((waiting e1 0).raise .busy).response = some [0x0A] := ⟨rfl, rfl⟩

theorem witness_EvtExactlyOnStatusChange :
    exec .tick (waiting e1 0) = .next ((waiting e1 0).complete ((waiting e1 0).regs.tick e1) [0x01, 0x01] [.evt]) :=
  rfl

theorem witness_OnlySendTransmits :
    ∃ t, exec .send (held e1) = .next t ∧ .txFrame frame1 ∈ t.events :=
  ⟨_, rfl, by decide⟩

theorem witness_RegistersChangeOnlyByTheirWriters : ∃ t, exec .tick (waiting e1 0) = .next t := ⟨_, rfl⟩

/-- A timed-out command, then a SEND of the next. -/
theorem witness_TerminalStatusChangesOnlyBySend :
    let s : State := { held e1 with regs := { (held e1).regs with status := .noReply, elapsed := 6 } }
    (s.regs.wait = true ↔ s.regs.status = .waiting) ∧ s.regs.status ≠ .none ∧ s.regs.status ≠ .waiting ∧
      ∃ t, exec .send s = .next t ∧ t.response = some [0x00, 0x05] :=
  ⟨by decide, by decide, by decide, _, rfl, rfl⟩

theorem witness_PseudoOperationsAreAliases :
    let frame := encodedFrame e1.key 1 false 5 [] 0
    let t := (held e1).complete ((held e1).regs.holdFrame e1 frame) (frameLength frame :: frame) []
    exec (.encode 1 false 5 [] 0) (held e1) = .next t ∧
      t.response = some (0x00 :: (frameLength frame :: frame)) ∧ 12 + ([] : List Byte).length ≤ 255 :=
  ⟨rfl, rfl, by decide⟩

theorem witness_RepeatedOperationLeavesTheSameRegisters :
    Instr.abort ≠ .send ∧ Instr.abort ≠ .tick ∧ ∃ t, exec .abort (held e1) = .next t :=
  ⟨by decide, by decide, _, rfl⟩

theorem witness_ConfigurationIsConstantAndNotReadable : ∃ t, step (fresh e1) = .next t := ⟨_, rfl⟩

/-- The state of W, two TICKs on, is safe, and a step leads from it. -/
theorem witness_EveryStepKeepsTheRegistersSafe :
    (waiting e1 2).Safe ∧ ∃ t, step (waiting e1 2) = .next t :=
  ⟨{ wait_iff := by decide
     tx_size := by decide +kernel
     held_length := by decide
     empty_length := by decide
     tx_tail := by decide +kernel
     elapsed_le := by decide
     elapsed_waiting := by decide
     no_reply := by decide
     nack_v := by decide
     ping_v := by decide
     rx_tail := by decide +kernel
     rx_unset := by decide }, _, rfl⟩

/-- The timeout of W leaves `sent` for `noReply`, and ABORT of a held frame leaves `queued`. -/
theorem witness_LifecycleTransitions :
    (waiting e1 2).Safe ∧ (∃ t, exec .tick (waiting e1 2) = .next t) ∧
      (waiting e1 2).regs.isIn .sent = true ∧ (waiting e1 2).regs.isIn .queued = false ∧
      (held e1).regs.isIn .queued = true ∧ (held e1).regs.isIn .sent = false :=
  ⟨witness_EveryStepKeepsTheRegistersSafe.1, ⟨_, rfl⟩, rfl, rfl, rfl, rfl⟩

theorem witness_EveryRunStaysSafe : (waiting e1 2).Safe := witness_EveryStepKeepsTheRegistersSafe.1

end Sys2Proof.Tests
end

section
/-!
PROOF. The statements of spec/00_scope.md: the big-endian conversions of R11, and that `KEY` (R3) reaches no
operation but those that compute a tag.
-/

namespace Sys2Proof.Machine

/-! ### The conversions of R11 as numbers -/

/-- A byte written after a word is its least significant one. -/
theorem toNat_append_byte {n : Nat} (v : BitVec n) (b : Byte) :
    (v ++ b).toNat = v.toNat * 2 ^ 8 + b.toNat := by
  rw [BitVec.toNat_append, ← Nat.shiftLeft_add_eq_or_of_lt b.isLt, Nat.shiftLeft_eq]

/-- A byte cut out of a word is a digit of it in base 256. -/
theorem toNat_extract_byte {n : Nat} (v : BitVec n) (k : Nat) :
    (v.extractLsb' k 8).toNat = v.toNat / 2 ^ k % 2 ^ 8 := by
  rw [BitVec.extractLsb'_toNat, Nat.shiftRight_eq_div_pow]

theorem be16_toNat (b0 b1 : Byte) : (be16 b0 b1).toNat = b0.toNat * 2 ^ 8 + b1.toNat :=
  toNat_append_byte b0 b1

theorem be32_toNat (b0 b1 b2 b3 : Byte) :
    (be32 b0 b1 b2 b3).toNat =
      b0.toNat * 2 ^ 24 + b1.toNat * 2 ^ 16 + b2.toNat * 2 ^ 8 + b3.toNat := by
  show (b0 ++ b1 ++ b2 ++ b3).toNat = _
  rw [toNat_append_byte, toNat_append_byte, toNat_append_byte]
  omega

/-- A 32-bit word is put together again from its four bytes. -/
theorem be32_extract (v : Word) :
    be32 (v.extractLsb' 24 8) (v.extractLsb' 16 8) (v.extractLsb' 8 8) (v.extractLsb' 0 8) = v := by
  apply BitVec.eq_of_toNat_eq
  have hv := v.isLt
  simp only [be32_toNat, toNat_extract_byte]
  omega

@[simp] theorem be16At_bytes16 (v : Half) : be16At (bytes16 v) 0 = v := be16_extract v

@[simp] theorem be32At_bytes32 (v : Word) : be32At (bytes32 v) 0 = v := be32_extract v

@[simp] theorem bytes16_be16 (b0 b1 : Byte) : bytes16 (be16 b0 b1) = [b0, b1] := by
  have h0 := b0.isLt
  have h1 := b1.isLt
  simp only [bytes16, List.cons.injEq, and_true, ← BitVec.toNat_inj, toNat_extract_byte, be16_toNat]
  omega

@[simp] theorem bytes32_be32 (b0 b1 b2 b3 : Byte) :
    bytes32 (be32 b0 b1 b2 b3) = [b0, b1, b2, b3] := by
  have h0 := b0.isLt
  have h1 := b1.isLt
  have h2 := b2.isLt
  have h3 := b3.isLt
  simp only [bytes32, List.cons.injEq, and_true, ← BitVec.toNat_inj, toNat_extract_byte, be32_toNat]
  omega

/-! ### Which parameters of the configuration an operation reads -/

/-- The state under another configuration. -/
def State.withConfig (s : State) (c : Config) : State := { s with config := c }

/-- The meaning `op` of an operation completes alike under two configurations: same registers, response
and events, and the configuration stays the one it ran under. -/
def RunsAlikeUnder (op : State → Host.Outcome State Fault Refusal) (s : State) (c : Config) : Prop :=
  ∃ t, op s = .next t ∧ t.config = s.config ∧ op (s.withConfig c) = .next (t.withConfig c)

@[simp] theorem State.withConfig_regs (s : State) (c : Config) : (s.withConfig c).regs = s.regs := rfl
@[simp] theorem State.withConfig_config (s : State) (c : Config) : (s.withConfig c).config = c := rfl
@[simp] theorem State.withConfig_linkUp (s : State) (c : Config) : (s.withConfig c).linkUp = s.linkUp := rfl
@[simp] theorem State.withConfig_txAccept (s : State) (c : Config) :
    (s.withConfig c).txAccept = s.txAccept := rfl

/-- Emptying the transmit buffer reads `PAYLOAD_MAX` alone, for the buffer's size. -/
theorem Regs.clearTx_congr {c c' : Config} (h : c.payloadMax = c'.payloadMax) (r : Regs) :
    r.clearTx c = r.clearTx c' := by
  simp only [Regs.clearTx, Config.txBufSize, h]

theorem Regs.startCommand_congr {c c' : Config} (h : c.payloadMax = c'.payloadMax) (r : Regs) :
    r.startCommand c = r.startCommand c' := by
  simp only [Regs.startCommand, Regs.clearTx_congr h]

/-- A TICK reads `TIMEOUT_S` alone. -/
theorem Regs.tick_congr {c c' : Config} (h : c.timeoutS = c'.timeoutS) (r : Regs) :
    r.tick c = r.tick c' := by
  unfold Regs.tick timedOut
  rw [h]

/-- An operation that raises the same error runs alike. -/
theorem runsAlikeUnder_of_raise {op : State → Host.Outcome State Fault Refusal} {s : State} {c : Config}
    {e : Err} (h : op s = .next (s.raise e)) (h' : op (s.withConfig c) = .next ((s.withConfig c).raise e)) :
    RunsAlikeUnder op s c :=
  ⟨_, h, rfl, h'⟩

/-- An operation that completes with the same registers, data and events runs alike. -/
theorem runsAlikeUnder_of_complete {op : State → Host.Outcome State Fault Refusal} {s : State}
    {c : Config} {r : Regs} {d : List Byte} {ev : List Event} (h : op s = .next (s.complete r d ev))
    (h' : op (s.withConfig c) = .next ((s.withConfig c).complete r d ev)) :
    RunsAlikeUnder op s c :=
  ⟨_, h, rfl, h'⟩

/-- SEND reads no parameter but `PAYLOAD_MAX`. -/
theorem execSend_runsAlikeUnder {s : State} {c : Config} (h : c.payloadMax = s.config.payloadMax) :
    RunsAlikeUnder execSend s c := by
  have other := execSend_cases (s.withConfig c)
  rcases execSend_cases s with ⟨hw, e⟩ | ⟨hw, hl, e⟩ | ⟨hw, hl, hv, e⟩ | ⟨hw, hl, hv, ha, e⟩ |
    ⟨hw, hl, hv, ha, e⟩
  · exact runsAlikeUnder_of_raise e (by simpa [hw] using other)
  · exact runsAlikeUnder_of_raise e (by simpa [hw, hl] using other)
  · exact runsAlikeUnder_of_raise e (by simpa [hw, hl, hv] using other)
  · exact runsAlikeUnder_of_raise e (by simpa [hw, hl, hv, ha] using other)
  · exact runsAlikeUnder_of_complete e
      (by simpa [hw, hl, hv, ha, Regs.startCommand_congr h] using other)

/-- TICK reads no parameter but `TIMEOUT_S`. -/
theorem execTick_runsAlikeUnder {s : State} {c : Config} (h : c.timeoutS = s.config.timeoutS) :
    RunsAlikeUnder execTick s c := by
  refine runsAlikeUnder_of_complete (execTick_eq s) ((execTick_eq (s.withConfig c)).trans ?_)
  rw [State.withConfig_regs, State.withConfig_config, Regs.tick_congr h]

/-- ABORT reads no parameter but `PAYLOAD_MAX`. -/
theorem execAbort_runsAlikeUnder {s : State} {c : Config} (h : c.payloadMax = s.config.payloadMax) :
    RunsAlikeUnder execAbort s c := by
  have other := execAbort_cases (s.withConfig c)
  rcases execAbort_cases s with ⟨hv, e⟩ | ⟨hv, e⟩
  · exact runsAlikeUnder_of_raise e (by simpa [hv] using other)
  · exact runsAlikeUnder_of_complete e (by simpa [hv, Regs.clearTx_congr h] using other)

/-- READ reads no parameter. -/
theorem execRead_runsAlikeUnder (addr : Half) (s : State) (c : Config) :
    RunsAlikeUnder (execRead addr) s c := by
  have other := execRead_cases addr (s.withConfig c)
  rcases execRead_cases addr s with ⟨hm, e⟩ | ⟨v, hm, e⟩
  · exact runsAlikeUnder_of_raise e (by simpa [hm] using other)
  · exact runsAlikeUnder_of_complete e (by simpa [hm] using other)

/-- SEND, TICK, ABORT and READ run alike under any two configurations that differ in `KEY` alone. -/
theorem runsAlikeUnder_key {i : Instr} (s : State) (key : Word)
    (hi : i = .send ∨ i = .tick ∨ i = .abort ∨ (∃ addr, i = .read addr)) :
    RunsAlikeUnder (exec i) s { s.config with key := key } := by
  rcases hi with rfl | rfl | rfl | ⟨addr, rfl⟩
  · exact execSend_runsAlikeUnder rfl
  · exact execTick_runsAlikeUnder rfl
  · exact execAbort_runsAlikeUnder rfl
  · exact execRead_runsAlikeUnder addr s _

end Sys2Proof.Machine

namespace Sys2Proof.Proofs

open Sys2Proof.Machine

/-- Settles O50: of the configuration these four operations read at most `PAYLOAD_MAX` and `TIMEOUT_S`. -/
theorem keyReachesOnlyTagOperations : Obligations.KeyReachesOnlyTagOperations := by
  intro i s key hi
  obtain ⟨t, ht, hconfig, ht'⟩ := runsAlikeUnder_key s key hi
  refine ⟨t, ht, ?_⟩
  rw [hconfig]
  exact ht'

/-- Settles O55: each word is the number its bytes write in base 256. -/
theorem bigEndianConversions : Obligations.BigEndianConversions :=
  ⟨be32_toNat, be32At_bytes32, bytes32_be32, be16_toNat, be16At_bytes16, bytes16_be16⟩

end Sys2Proof.Proofs
end

section
/-!
PROOF. The statements of spec/10_state.md about the register map (R41).
-/

namespace Sys2Proof.Machine

/-! ### Fields of a word built by appending -/

/-- CTRLSTAT with its 32 bits written as the sum of its fields' widths, the form in which the library's
lemmas on `++` apply to it. -/
def Regs.ctrlStatFields (r : Regs) : BitVec (19 + 1 + 1 + 1 + 2 + 1 + 1 + 1 + 1 + 1 + 3) :=
  (0 : BitVec 19) ++ bit r.rxEcc ++ bit r.rxMacOk ++ bit r.rxV ++ r.diag.code ++ bit r.pingV ++
    bit r.nackV ++ bit r.ackSrc ++ bit r.txV ++ bit r.wait ++ r.status.code

theorem ctrlStat_eq_fields (r : Regs) : ctrlStat r = r.ctrlStatFields := rfl

/-- The fields of CTRLSTAT of more than one bit, the reserved one among them. -/
theorem ctrlStatFields_extract (r : Regs) :
    r.ctrlStatFields.extractLsb' 0 3 = r.status.code ∧
      r.ctrlStatFields.extractLsb' 8 2 = r.diag.code ∧ r.ctrlStatFields.extractLsb' 13 19 = 0 := by
  simp (disch := decide) only [Regs.ctrlStatFields, BitVec.extractLsb'_append_eq_of_le,
    BitVec.extractLsb'_append_eq_of_add_le, Nat.reduceSub, BitVec.extractLsb'_eq_self, and_self]

/-- The one-bit fields of CTRLSTAT. -/
theorem ctrlStatFields_bits (r : Regs) :
    r.ctrlStatFields.getLsbD 3 = r.wait ∧ r.ctrlStatFields.getLsbD 4 = r.txV ∧
      r.ctrlStatFields.getLsbD 5 = r.ackSrc ∧ r.ctrlStatFields.getLsbD 6 = r.nackV ∧
      r.ctrlStatFields.getLsbD 7 = r.pingV ∧ r.ctrlStatFields.getLsbD 10 = r.rxV ∧
      r.ctrlStatFields.getLsbD 11 = r.rxMacOk ∧ r.ctrlStatFields.getLsbD 12 = r.rxEcc := by
  simp only [Regs.ctrlStatFields, BitVec.getLsbD_append, bit]
  simp

/-- The fields of the word at `0x004`. -/
theorem nackWord_extract (req err : Byte) :
    ((0 : BitVec 16) ++ err ++ req).extractLsb' 0 8 = req ∧
      ((0 : BitVec 16) ++ err ++ req).extractLsb' 8 8 = err ∧
      ((0 : BitVec 16) ++ err ++ req).extractLsb' 16 16 = 0 := by
  simp (disch := decide) only [BitVec.extractLsb'_append_eq_of_le,
    BitVec.extractLsb'_append_eq_of_add_le, Nat.reduceSub, BitVec.extractLsb'_eq_self, and_self]

/-- The fields of a word of four bytes, as the one at `0x009` is. -/
theorem be32_extractLsb' (b0 b1 b2 b3 : Byte) :
    (be32 b0 b1 b2 b3).extractLsb' 0 8 = b3 ∧ (be32 b0 b1 b2 b3).extractLsb' 8 8 = b2 ∧
      (be32 b0 b1 b2 b3).extractLsb' 16 8 = b1 ∧ (be32 b0 b1 b2 b3).extractLsb' 24 8 = b0 := by
  have bytes := bytes32_be32 b0 b1 b2 b3
  simp only [bytes32, List.cons.injEq, and_true] at bytes
  obtain ⟨h0, h1, h2, h3⟩ := bytes
  exact ⟨h3, h2, h1, h0⟩

/-! ### The buffers in the map -/

/-- The first 256 entries of `TXBUF` stand from `0x100` on. -/
theorem readMap_txBuf (r : Regs) {i : Nat} (hi : i < r.txBuf.length) (h256 : i < 256) :
    readMap r (BitVec.ofNat 16 (0x100 + i)) = some ((byteAt r.txBuf i).setWidth 32) := by
  have haddr : (BitVec.ofNat 16 (0x100 + i)).toNat = 0x100 + i := Nat.mod_eq_of_lt (by omega)
  rw [readMap_buffers r (by omega), haddr, readBuffers, if_pos (by omega), Nat.add_sub_cancel_left]

/-- The entries of `RX_PAYLOAD` stand from `0x200` on. -/
theorem readMap_rxPayload (r : Regs) {i : Nat} (hi : i < 255) :
    readMap r (BitVec.ofNat 16 (0x200 + i)) = some ((r.rxPayload[i]'hi).setWidth 32) := by
  have haddr : (BitVec.ofNat 16 (0x200 + i)).toNat = 0x200 + i := Nat.mod_eq_of_lt (by omega)
  rw [readMap_buffers r (by omega), haddr, readBuffers, if_neg (by omega), if_pos (by omega),
    Nat.add_sub_cancel_left, byteAt_eq_getElem (by simpa using hi), Vector.getElem_toList]

/-- The gaps of the map: below, between and above the buffers. -/
theorem readMap_gap (r : Regs) {addr : Half} (habove : 0x00B < addr.toNat)
    (hgap : addr.toNat < 0x100 ∨ (0x100 + r.txBuf.length ≤ addr.toNat ∧ addr.toNat < 0x200) ∨
      0x2FE < addr.toNat) : readMap r addr = none := by
  rw [readMap_buffers r habove, readBuffers, if_neg (by omega), if_neg (by omega)]

end Sys2Proof.Machine

namespace Sys2Proof.Proofs

open Sys2Proof.Machine

/-- Settles O39: the buffer's clauses of the map, whatever the number of its entries. -/
theorem transmitBufferIsMappedByItsSize : Obligations.TransmitBufferIsMappedByItsSize :=
  fun r => ⟨fun _ hi h256 => readMap_txBuf r hi h256,
    fun _ hend hlt => readMap_gap r (by omega) (.inr (.inl ⟨hend, hlt⟩))⟩

/-- Settles O38: the named registers by the map's own arms, the fields of its words one by one, the buffers
by their ranges and the gaps between. -/
theorem registerMapIsAsListed : Obligations.RegisterMapIsAsListed := by
  intro r
  obtain ⟨hstatus, hdiag, hreserved⟩ := ctrlStatFields_extract r
  obtain ⟨hwait, htxV, hackSrc, hnackV, hpingV, hrxV, hmacOk, hecc⟩ := ctrlStatFields_bits r
  refine ⟨⟨_, congrArg some (ctrlStat_eq_fields r), hstatus, hwait, htxV, hackSrc, hnackV, hpingV, hdiag,
      hrxV, hmacOk, hecc, hreserved⟩,
    rfl, rfl, rfl, ⟨_, rfl, nackWord_extract r.nackReq r.nackErr⟩, rfl, rfl, rfl, rfl,
    ⟨_, rfl, be32_extractLsb' 0 r.rxLen r.rxCode r.rxOrigin⟩, rfl, rfl, ?txEntries,
    fun _ hi => readMap_rxPayload r hi, ?gaps⟩
  case txEntries => exact fun hsize _ hi => readMap_txBuf r (by omega) (by omega)
  case gaps => exact fun _ habove hgap => readMap_gap r habove (by omega)

end Sys2Proof.Proofs
end

section
/-!
PROOF. The statements of spec/10_state.md about what an operation and a step can do to the state: which
registers each operation writes (R22 to R37), the terminal `STATUS` (R26) and the configuration (R40).
-/

namespace Sys2Proof.Machine

/-! ### What an operation can do -/

/-- What an operation `i` can leave behind in a state `s`: an error, an answer with no register written, or
an update of the registers, each with what the operation has checked before it.  Which data it
answers and which events it emits is left open. -/
inductive Effect (s : State) : Instr → State → Prop
  | raised (i : Instr) (e : Err) : Effect s i (s.raise e)
  | answered (i : Instr) (d : List Byte) (ev : List Event) : Effect s i (s.complete s.regs d ev)
  | held (origin : Byte) (ecc : Bool) (code : Byte) (payload : List Byte) (now : Word) (d : List Byte)
      (ev : List Event) (fits : payload.length ≤ s.config.payloadMax.val) :
      Effect s (.encode origin ecc code payload now) (s.complete
        (s.regs.holdFrame s.config (encodedFrame s.config.key origin ecc code payload now)) d ev)
  | parsed (b : List Byte) (f : Frame) (d : List Byte) (ev : List Event)
      (parses : parse s.config b = .ok f) :
      Effect s (.decode b) (s.complete (s.regs.commitFrame f) d ev)
  | received (b : List Byte) (f : Frame) (d : List Byte) (ev : List Event)
      (parses : parse s.config b = .ok f) (waits : s.regs.wait = false) :
      Effect s (.receive b) (s.complete (s.regs.commitFrame f) d ev)
  | classified (b : List Byte) (f : Frame) (d : List Byte) (ev : List Event)
      (parses : parse s.config b = .ok f) (waits : s.regs.wait = true) :
      Effect s (.receive b) (s.complete ((s.regs.commitFrame f).classify s.config) d ev)
  | started (d : List Byte) (ev : List Event) (waits : s.regs.wait = false)
      (holds : s.regs.txV = true) :
      Effect s .send (s.complete (s.regs.startCommand s.config) d ev)
  | ticked (d : List Byte) (ev : List Event) :
      Effect s .tick (s.complete (s.regs.tick s.config) d ev)
  | cleared (d : List Byte) (ev : List Event) (holds : s.regs.txV = true) :
      Effect s .abort (s.complete (s.regs.clearTx s.config) d ev)

/-- Every operation completes, with one of these effects. -/
theorem exec_effect (i : Instr) (s : State) : ∃ t, exec i s = .next t ∧ Effect s i t := by
  cases i with
  | encode origin ecc code payload now =>
    rcases execEncode_cases origin ecc code payload now s with ⟨-, h⟩ | ⟨-, -, h⟩ | ⟨fits, -, h⟩
    · exact ⟨_, h, .raised _ _⟩
    · exact ⟨_, h, .raised _ _⟩
    · exact ⟨_, h, .held _ _ _ _ _ _ _ fits⟩
  | decode b =>
    rcases execDecode_cases b s with ⟨e, -, h⟩ | ⟨f, parses, h⟩
    · exact ⟨_, h, .raised _ _⟩
    · exact ⟨_, h, .parsed _ _ _ _ parses⟩
  | receive b =>
    rcases execReceive_cases b s with ⟨e, -, h⟩ | ⟨f, parses, waits, h⟩ | ⟨f, parses, waits, h⟩
    · exact ⟨_, h, .raised _ _⟩
    · exact ⟨_, h, .received _ _ _ _ parses waits⟩
    · exact ⟨_, h, .classified _ _ _ _ parses waits⟩
  | send =>
    rcases execSend_cases s with ⟨-, h⟩ | ⟨-, -, h⟩ | ⟨-, -, -, h⟩ | ⟨-, -, -, -, h⟩ |
      ⟨waits, -, holds, -, h⟩
    · exact ⟨_, h, .raised _ _⟩
    · exact ⟨_, h, .raised _ _⟩
    · exact ⟨_, h, .raised _ _⟩
    · exact ⟨_, h, .raised _ _⟩
    · exact ⟨_, h, .started _ _ waits holds⟩
  | tick => exact ⟨_, execTick_eq s, .ticked _ _⟩
  | abort =>
    rcases execAbort_cases s with ⟨-, h⟩ | ⟨holds, h⟩
    · exact ⟨_, h, .raised _ _⟩
    · exact ⟨_, h, .cleared _ _ holds⟩
  | tag b => exact ⟨_, execTag_eq b s, .answered _ _ _⟩
  | read addr =>
    rcases execRead_cases addr s with ⟨-, h⟩ | ⟨v, -, h⟩
    · exact ⟨_, h, .raised _ _⟩
    · exact ⟨_, h, .answered _ _ _⟩

theorem effect_of_exec {i : Instr} {s t : State} (h : exec i s = .next t) : Effect s i t := by
  obtain ⟨u, hu, effect⟩ := exec_effect i s
  cases hu.symm.trans h
  exact effect

theorem Effect.config_eq {i : Instr} {s t : State} (effect : Effect s i t) : t.config = s.config := by
  cases effect <;> rfl

/-! ### What a step can do -/

/-- A step that takes a message which decodes runs its operation. -/
theorem step_eq_exec {s : State} {m : List Byte} {l a : Bool} {rest : List HostInput} {i : Instr}
    (hqueue : s.hostQueue = .op m l a :: rest) (hdecode : decodeMessage m = .ok i) :
    step s = exec i (s.takeOp l a rest) := by
  unfold step
  simp only [hqueue, hdecode]

/-- Every step answers a next state, of the same configuration, in which the registers are as before, at
their reset values, or as an operation of the host leaves them. -/
theorem step_effect (s : State) : ∃ t, step s = .next t ∧ t.config = s.config ∧
    (t.regs = s.regs ∨ t.regs = Regs.reset s.config ∨
      ∃ i l a rest, Effect (s.takeOp l a rest) i t) := by
  rcases step_cases s with ⟨-, h⟩ | ⟨rest, -, h⟩ | ⟨m, l, a, rest, e, -, -, h⟩ |
    ⟨m, l, a, rest, i, -, -, h⟩
  · exact ⟨_, h, rfl, .inl rfl⟩
  · exact ⟨_, h, rfl, .inr (.inl rfl)⟩
  · exact ⟨_, h, rfl, .inl rfl⟩
  · obtain ⟨t, ht, effect⟩ := exec_effect i (s.takeOp l a rest)
    exact ⟨t, h.trans ht, effect.config_eq, .inr (.inr ⟨i, l, a, rest, effect⟩)⟩

theorem step_config_eq {s t : State} (h : step s = .next t) : t.config = s.config := by
  obtain ⟨u, hu, hconfig, -⟩ := step_effect s
  cases hu.symm.trans h
  exact hconfig

/-! ### What the classifier and a TICK write -/

/-- The classifier writes `WAIT`, `STATUS`, the results and `DIAG`, and no other register. -/
theorem classify_frame (c : Config) (r : Regs) :
    r.classify c = { r with
      wait := false, status := (r.classify c).status, ackSrc := (r.classify c).ackSrc
      nackReq := (r.classify c).nackReq, nackErr := (r.classify c).nackErr
      nackV := (r.classify c).nackV, unexpCode := (r.classify c).unexpCode
      pingRssi := (r.classify c).pingRssi, pingSnr := (r.classify c).pingSnr
      pingFshift := (r.classify c).pingFshift, pingV := (r.classify c).pingV
      diag := (r.classify c).diag } := by
  rcases classify_cases c r with ⟨-, h⟩ | ⟨-, -, h⟩ | ⟨-, -, -, h⟩ | ⟨-, -, -, h⟩
  · rw [h, Regs.classifyAck]
    split <;> rfl
  · rw [h, Regs.classifyNack]
    split <;> rfl
  · rw [h, Regs.classifyPing]
    split <;> rfl
  · rw [h, Regs.classifyOther]

/-- A TICK writes `ELAPSED`, `STATUS` and `WAIT`, and no other register. -/
theorem tick_frame (c : Config) (r : Regs) :
    r.tick c = { r with
      elapsed := (r.tick c).elapsed, status := (r.tick c).status, wait := (r.tick c).wait } := by
  rcases tick_cases c r with ⟨-, h⟩ | ⟨-, -, h⟩ | ⟨-, -, h⟩ <;> rw [h]

end Sys2Proof.Machine

namespace Sys2Proof.Proofs

open Sys2Proof.Machine

/-- Settles O5: the step's own arm for a message that decodes. -/
theorem stepRunsTheDecodedOperation : Obligations.StepRunsTheDecodedOperation :=
  fun _ _ _ _ _ _ hqueue hdecode _ => step_eq_exec hqueue hdecode

/-- Settles O49: an effect never reaches the configuration, and the map is a function of the registers. -/
theorem configurationIsConstantAndNotReadable : Obligations.ConfigurationIsConstantAndNotReadable := by
  refine ⟨fun s t h => step_config_eq h, fun s c addr => ?_⟩
  obtain ⟨t, ht, -, ht'⟩ := execRead_runsAlikeUnder addr s c
  exact ⟨t, ht, ht'⟩

/-- Settles O46: with a terminal status no command waits, so nothing is classified or timed out. -/
theorem terminalStatusChangesOnlyBySend : Obligations.TerminalStatusChangesOnlyBySend := by
  intro i s t err data hwait _ hwaiting hexec hresponse
  have hidle : s.regs.wait = false := by simpa [hwaiting] using hwait
  cases effect_of_exec hexec with
  | raised | answered | held | parsed | received | cleared => exact .inl rfl
  | classified _ _ _ _ _ waits => exact absurd (hidle.symm.trans waits) Bool.false_ne_true
  | started =>
    have hok : okCode = err := by
      rw [State.complete_response, Option.some.injEq, List.cons.injEq] at hresponse
      exact hresponse.1
    exact .inr ⟨rfl, hok.symm, rfl⟩
  | ticked =>
    left
    rcases tick_cases s.config s.regs with ⟨-, h⟩ | ⟨waits, -⟩ | ⟨waits, -⟩
    · rw [State.complete_regs, h]
    · exact absurd (hidle.symm.trans waits) Bool.false_ne_true
    · exact absurd (hidle.symm.trans waits) Bool.false_ne_true

/-- Settles O45: of each effect, a clause holds because its operation is one the clause excludes or because
its update leaves the clause's registers alone; for the classifier and TICK their frames say which. -/
theorem registersChangeOnlyByTheirWriters : Obligations.RegistersChangeOnlyByTheirWriters := by
  intro i s t hexec
  cases effect_of_exec hexec with
  | raised | answered | held | parsed | received | started | cleared => simp
  | classified b f =>
    rw [State.complete_regs, classify_frame]
    simp
  | ticked =>
    rw [State.complete_regs, tick_frame]
    simp

end Sys2Proof.Proofs
end

section
/-!
PROOF. The invariant of the registers (`Regs.Inv`: spec/10_state.md R22 to R36, spec/43_command_fsm.md R221)
along steps and runs: one lemma for each update of the registers, then the step, then the run.
-/

namespace Sys2Proof.Machine

/-! ### The frame that ENCODE holds -/

theorem tag_length (key : Word) (m : List Byte) : (tag key m).length = 4 := by
  have hsha : ∀ x, (sha256 x).length = 32 := fun x => by
    unfold sha256
    exact shaState_bytes_length _
  simp [tag, hmac, hsha]

theorem encodedFrame_length (key : Word) (origin : Byte) (ecc : Bool) (code : Byte)
    (payload : List Byte) (now : Word) :
    (encodedFrame key origin ecc code payload now).length = 12 + payload.length := by
  simp only [encodedFrame, frameBytes, List.length_append, List.length_cons, List.length_nil,
    bytes32_length, tag_length]

/-- Byte 3 of the frame is the payload's length (R83), where a byte can hold it. -/
theorem encodedFrame_lengthByte (key : Word) (origin : Byte) (ecc : Bool) (code : Byte)
    {payload : List Byte} (now : Word) (h : payload.length ≤ 255) :
    (byteAt (encodedFrame key origin ecc code payload now) 3).toNat = payload.length :=
  (BitVec.toNat_ofNat _ _).trans (Nat.mod_eq_of_lt (by omega))

/-! ### The updates of the registers -/

/-- The reset values meet the invariant, under every configuration (R280). -/
theorem Regs.reset_inv (c : Config) : (Regs.reset c).Inv c where
  wait_iff := by simp [Regs.reset]
  tx_size := List.length_replicate
  held_length := by simp [Regs.reset]
  empty_length := fun _ => rfl
  tx_tail := rfl
  elapsed_le := Nat.zero_le _
  elapsed_waiting := by simp [Regs.reset]
  no_reply := by simp [Regs.reset]
  nack_v := by simp [Regs.reset]
  ping_v := by simp [Regs.reset]
  rx_tail := Vector.toList_replicate
  rx_unset := fun _ => ⟨rfl, rfl, rfl, rfl, rfl, rfl, rfl⟩

section
variable {c : Config} {r : Regs}

/-- The sum of a TICK does not wrap while a command waits (R27). -/
theorem Regs.Inv.elapsed_succ_toNat (h : r.Inv c) (waits : r.wait = true) :
    (r.elapsed + 1).toNat = r.elapsed.toNat + 1 := by
  have hle := h.elapsed_waiting waits
  have hlt := c.timeoutS.isLt
  exact BitVec.toNat_add_of_lt (by simp; omega)

/-- Holding a frame that fits the buffer and whose byte 3 counts its payload (R115). -/
theorem Regs.Inv.holdFrame (h : r.Inv c) {frame : List Byte}
    (hlength : frame.length = 12 + (byteAt frame 3).toNat)
    (hfits : (byteAt frame 3).toNat ≤ c.payloadMax.val) : (r.holdFrame c frame).Inv c := by
  have hsize : frame.length ≤ c.txBufSize := by
    show frame.length ≤ 12 + c.payloadMax.val
    omega
  have hbyte : byteAt (filledBuffer c.txBufSize frame) 3 = byteAt frame 3 :=
    byteAt_filledBuffer hsize (by omega)
  have hheld : (r.holdFrame c frame).heldLength = frame.length := by
    simp only [Regs.heldLength, Regs.holdFrame_txV, Regs.holdFrame_txBuf, hbyte, if_true, hlength]
  exact
  { h with
    tx_size := filledBuffer_length _ _
    held_length := fun _ => by
      rw [Regs.holdFrame_txBuf, hbyte, Regs.holdFrame_txLen]
      refine ⟨hfits, fun hcounts => ?_⟩
      rw [frameLength_toNat (by omega)]
      omega
    empty_length := fun hempty => absurd hempty.symm Bool.false_ne_true
    tx_tail := by
      rw [hheld, Regs.holdFrame_txBuf, filledBuffer_eq hsize, List.drop_left] }

/-- Emptying the transmit buffer (R206, R230). -/
theorem Regs.Inv.clearTx (h : r.Inv c) : (r.clearTx c).Inv c :=
  { h with
    tx_size := zeros_length _
    held_length := fun holds => absurd holds Bool.false_ne_true
    empty_length := fun _ => rfl
    tx_tail := rfl }

/-- Starting a command (R206). -/
theorem Regs.Inv.startCommand (h : r.Inv c) : (r.startCommand c).Inv c :=
  { h.clearTx with
    wait_iff := iff_of_true rfl rfl
    elapsed_le := Nat.zero_le _
    elapsed_waiting := fun _ => Nat.zero_le _
    no_reply := fun hstatus => nomatch hstatus
    nack_v := fun hv => absurd hv Bool.false_ne_true
    ping_v := fun hv => absurd hv Bool.false_ne_true }

/-- Committing a frame that parsed (R137). -/
theorem Regs.Inv.commitFrame (h : r.Inv c) {b : List Byte} {f : Frame} (parses : parse c b = .ok f) :
    (r.commitFrame f).Inv c :=
  { h with
    rx_tail := by
      obtain ⟨hf, hlength, -⟩ := parse_ok parses
      have hlen : f.len = byteAt b 3 := by rw [hf]; rfl
      have hpayload : (bytesFrom b 12 (byteAt b 3).toNat).length = (byteAt b 3).toNat :=
        bytesFrom_length hlength
      rw [commitFrame_rxPayload_toList parses, Regs.commitFrame_rxLen, hlen,
        List.drop_left' hpayload]
    rx_unset := fun hunset => absurd hunset.symm Bool.false_ne_true }

/-- While a command waits the registers hold no NACK's values and no ping reply's. -/
theorem Regs.Inv.no_results (h : r.Inv c) (waits : r.wait = true) :
    r.nackV = false ∧ r.pingV = false := by
  have hstatus := h.wait_iff.mp waits
  have hnack := h.nack_v
  have hping := h.ping_v
  simpa [hstatus] using And.intro hnack hping

/-- Resolving the waiting command with a status other than the timeout's (R213). -/
theorem Regs.Inv.resolve (h : r.Inv c) (waits : r.wait = true) {st : Status}
    (hwaiting : st ≠ .waiting) (hreply : st ≠ .noReply) :
    Regs.Inv c { r with wait := false, status := st } := by
  obtain ⟨hnack, hping⟩ := h.no_results waits
  exact
  { h with
    wait_iff := iff_of_false Bool.false_ne_true hwaiting
    elapsed_waiting := fun hw => absurd hw Bool.false_ne_true
    no_reply := fun hst => absurd hst hreply
    nack_v := fun hv => absurd (hnack.symm.trans hv) Bool.false_ne_true
    ping_v := fun hv => absurd (hping.symm.trans hv) Bool.false_ne_true }

theorem Regs.Inv.classifyAck (h : r.Inv c) (waits : r.wait = true) :
    (Regs.classifyAck { r with wait := false }).Inv c := by
  obtain ⟨-, hping⟩ := h.no_results waits
  unfold Regs.classifyAck
  split
  case isTrue =>
    exact { h.resolve waits (st := .acked) nofun nofun with
      ping_v := fun hv => absurd (hping.symm.trans hv) Bool.false_ne_true }
  case isFalse => exact { h.resolve waits (st := .invalidAck) nofun nofun with }

theorem Regs.Inv.classifyNack (h : r.Inv c) (waits : r.wait = true) :
    (Regs.classifyNack { r with wait := false }).Inv c := by
  unfold Regs.classifyNack
  split <;> exact { h.resolve waits (st := .nacked) nofun nofun with nack_v := fun _ => rfl }

theorem Regs.Inv.classifyPing (h : r.Inv c) (waits : r.wait = true) :
    (Regs.classifyPing { r with wait := false }).Inv c := by
  unfold Regs.classifyPing
  split <;> exact { h.resolve waits (st := .acked) nofun nofun with ping_v := fun _ => ⟨rfl, rfl⟩ }

theorem Regs.Inv.classifyOther (h : r.Inv c) (waits : r.wait = true) :
    (Regs.classifyOther { r with wait := false }).Inv c :=
  { h.resolve waits (st := .unexpectedReply) nofun nofun with }

/-- Classifying the reply of a waiting command (R212 to R219). -/
theorem Regs.Inv.classify (h : r.Inv c) (waits : r.wait = true) : (r.classify c).Inv c := by
  rcases classify_cases c r with ⟨-, e⟩ | ⟨-, -, e⟩ | ⟨-, -, -, e⟩ | ⟨-, -, -, e⟩ <;> rw [e]
  · exact h.classifyAck waits
  · exact h.classifyNack waits
  · exact h.classifyPing waits
  · exact h.classifyOther waits

/-- A TICK (R220, R221): the counter reaches `TIMEOUT_S + 1` only in the TICK that ends the wait. -/
theorem Regs.Inv.tick (h : r.Inv c) : (r.tick c).Inv c := by
  rcases tick_cases c r with ⟨-, e⟩ | ⟨waits, hle, e⟩ | ⟨waits, hlt, e⟩ <;> rw [e]
  · exact h
  · have hstatus := h.wait_iff.mp waits
    exact
    { h with
      elapsed_le := Nat.le_succ_of_le hle
      elapsed_waiting := fun _ => hle
      no_reply := fun hst => nomatch hstatus.symm.trans hst }
  · obtain ⟨hnack, hping⟩ := h.no_results waits
    have hsucc : (r.elapsed + 1).toNat = c.timeoutS.val + 1 := by
      have hwaiting := h.elapsed_waiting waits
      have hsum := h.elapsed_succ_toNat waits
      omega
    exact
    { h with
      wait_iff := iff_of_false Bool.false_ne_true nofun
      elapsed_le := hsucc.le
      elapsed_waiting := fun hw => absurd hw Bool.false_ne_true
      no_reply := fun _ => hsucc
      nack_v := fun hv => absurd (hnack.symm.trans hv) Bool.false_ne_true
      ping_v := fun hv => absurd (hping.symm.trans hv) Bool.false_ne_true }

end

/-! ### Operations, steps and runs -/

/-- Every operation keeps a state safe. -/
theorem Effect.safe {i : Instr} {s t : State} (effect : Effect s i t) (h : s.Safe) : t.Safe := by
  cases effect with
  | raised | answered => exact h
  | held origin ecc code payload now d ev fits =>
    have hbyte := encodedFrame_lengthByte s.config.key origin ecc code now
      (fits.trans (Nat.le_of_lt_succ s.config.payloadMax.isLt))
    exact Regs.Inv.holdFrame h (by rw [hbyte, encodedFrame_length]) (by rw [hbyte]; exact fits)
  | parsed b f d ev parses => exact Regs.Inv.commitFrame h parses
  | received b f d ev parses => exact Regs.Inv.commitFrame h parses
  | classified b f d ev parses waits =>
    exact Regs.Inv.classify (Regs.Inv.commitFrame h parses) waits
  | started => exact Regs.Inv.startCommand h
  | ticked => exact Regs.Inv.tick h
  | cleared => exact Regs.Inv.clearTx h

/-- From a safe state a step goes on to a safe state of the same configuration. -/
theorem step_safe {s : State} (h : s.Safe) : ∃ t, step s = .next t ∧ t.Safe ∧ t.config = s.config := by
  obtain ⟨t, ht, hconfig, hregs⟩ := step_effect s
  refine ⟨t, ht, ?_, hconfig⟩
  rcases hregs with hsame | hreset | ⟨i, l, a, rest, effect⟩
  · rw [State.Safe, hsame, hconfig]
    exact h
  · rw [State.Safe, hreset, hconfig]
    exact Regs.reset_inv s.config
  · exact effect.safe h

/-- A run of one step more takes the step first. -/
theorem run_succ_of_step (M : Host.Core) {s t : M.State} (h : M.step s = .next t) (n : Nat) :
    M.run (n + 1) s = M.run n t := by
  simp only [Host.Core.run, h]

/-- From a safe state every run goes on to a safe state of the same configuration. -/
theorem run_safe (n : Nat) {s : State} (h : s.Safe) :
    ∃ t, Sys2Proof.core.run n s = .next t ∧ t.Safe ∧ t.config = s.config := by
  induction n generalizing s with
  | zero => exact ⟨s, rfl, h, rfl⟩
  | succ n ih =>
    obtain ⟨u, hu, husafe, huconfig⟩ := step_safe h
    obtain ⟨t, ht, htsafe, htconfig⟩ := ih husafe
    exact ⟨t, (run_succ_of_step Sys2Proof.core hu n).trans ht, htsafe, htconfig.trans huconfig⟩

end Sys2Proof.Machine

namespace Sys2Proof.Proofs

open Sys2Proof.Machine

/-- Settles O52: each effect of an operation, and a reset, keeps the invariant. -/
theorem everyStepKeepsTheRegistersSafe : Obligations.EveryStepKeepsTheRegistersSafe := by
  intro s t h hstep
  obtain ⟨u, hu, husafe, -⟩ := step_safe h
  cases hu.symm.trans hstep
  exact husafe

/-- Settles O54, by induction on the number of steps; a safe state bounds `ELAPSED` by `TIMEOUT_S`, which is
below 255. -/
theorem everyRunStaysSafe : Obligations.EveryRunStaysSafe := by
  intro n s h
  obtain ⟨t, ht, htsafe, hconfig⟩ := run_safe n h
  exact ⟨t, ht, htsafe, hconfig, fun waits => Regs.Inv.elapsed_succ_toNat htsafe waits⟩

end Sys2Proof.Proofs
end

section
/-!
PROOF. The statements of spec/20_memory.md: what is transmitted, by whom and once (R61, R75), which of two
events comes first (R72), and which operations may be repeated (R68).
-/

namespace Sys2Proof.Machine

/-! ### The meanings where nothing is refused -/

theorem registered_of_mem {c : Config} {origin : Byte} (hne : origin ≠ 0x00)
    (hmem : origin ∈ c.stations) : registered c origin = true :=
  Bool.and_eq_true_iff.mpr ⟨bne_iff_ne.mpr hne, List.contains_iff_mem.mpr hmem⟩

/-- ENCODE of a payload that fits, for a registered station (R113 to R115). -/
theorem exec_encode_of_accepted {s : State} {origin : Byte} (ecc : Bool) (code : Byte)
    {payload : List Byte} (now : Word) (hfits : payload.length ≤ s.config.payloadMax.val)
    (hstation : registered s.config origin = true) :
    exec (.encode origin ecc code payload now) s = .next (s.complete
      (s.regs.holdFrame s.config (encodedFrame s.config.key origin ecc code payload now))
      (frameLength (encodedFrame s.config.key origin ecc code payload now) ::
        encodedFrame s.config.key origin ecc code payload now) []) := by
  rcases execEncode_cases origin ecc code payload now s with ⟨hlong, -⟩ | ⟨-, hunknown, -⟩ | ⟨-, -, h⟩
  · omega
  · exact absurd (hunknown.symm.trans hstation) Bool.false_ne_true
  · exact h

/-- SEND of a held frame over an open link that takes it (R205, R206). -/
theorem exec_send_of_ready {s : State} (hwait : s.regs.wait = false) (hlink : s.linkUp = true)
    (hheld : s.regs.txV = true) (haccept : s.txAccept = true) :
    exec .send s = .next (s.complete (s.regs.startCommand s.config) [byteAt s.regs.txBuf 2]
      [.txFrame (heldFrame s.regs), .txTrigger, .evt]) := by
  show execSend s = _
  simpa [hwait, hlink, hheld, haccept] using execSend_cases s

/-- A parse of an acceptable candidate answers its fields (R131 to R136). -/
theorem parse_of_acceptable {c : Config} {b : List Byte} (h : Acceptable c b) :
    parse c b = .ok (frameFields c.key b) := by
  obtain ⟨hheader, hflag, hpayload, hmac⟩ := h
  have hlegal : legalEccFlag (byteAt b 1) = true := (legalEccFlag_iff _).mpr hflag
  rcases parse_cases c b with ⟨hshort, -⟩ | ⟨-, hillegal, -⟩ | ⟨-, -, hshort, -⟩ |
    ⟨-, -, hverify, hbad, -⟩ | ⟨-, -, -, hok⟩
  · omega
  · exact absurd (hillegal.symm.trans hlegal) Bool.false_ne_true
  · exact absurd hpayload (Nat.not_le.mpr hshort)
  · have hgood := (frameFields_macOk_iff c.key b).mpr (hmac hverify)
    exact absurd (hbad.symm.trans hgood) Bool.false_ne_true
  · exact hok

/-- RECEIVE of a frame with no command outstanding (R211). -/
theorem exec_receive_of_idle {s : State} {b : List Byte} {f : Frame} (parses : parse s.config b = .ok f)
    (hwait : s.regs.wait = false) :
    exec (.receive b) s = .next (s.complete (s.regs.commitFrame f)
      (frameResponse f ++ [flagByte false, s.regs.status.byte]) []) := by
  show execReceive b s = _
  simpa [parses, hwait] using execReceive_cases b s

/-- RECEIVE of a frame while a command waits (R213). -/
theorem exec_receive_of_waiting {s : State} {b : List Byte} {f : Frame}
    (parses : parse s.config b = .ok f) (hwait : s.regs.wait = true) :
    exec (.receive b) s = .next (s.complete ((s.regs.commitFrame f).classify s.config)
      (frameResponse f ++ [flagByte true, ((s.regs.commitFrame f).classify s.config).status.byte])
      [.evt]) := by
  show execReceive b s = _
  simpa [parses, hwait] using execReceive_cases b s

/-- A TICK with no command outstanding leaves the registers (R222). -/
theorem tick_of_idle (c : Config) {r : Regs} (hwait : r.wait = false) : r.tick c = r := by
  simpa [hwait] using tick_cases c r

/-- The TICK that takes `ELAPSED` past `TIMEOUT_S` (R221). -/
theorem tick_of_timeout {c : Config} {r : Regs} (hwait : r.wait = true)
    (hlast : r.elapsed.toNat = c.timeoutS.val) :
    r.tick c = { r with elapsed := r.elapsed + 1, status := .noReply, wait := false } := by
  have hlt := c.timeoutS.isLt
  have hsucc : (r.elapsed + 1).toNat = r.elapsed.toNat + 1 :=
    BitVec.toNat_add_of_lt (by simp; omega)
  rcases tick_cases c r with ⟨hidle, -⟩ | ⟨-, hle, -⟩ | ⟨-, -, h⟩
  · exact absurd (hidle.symm.trans hwait) Bool.false_ne_true
  · omega
  · exact h

/-- The classifier over registers that hold an ACK of the waiting command's code (R212). -/
theorem classify_of_matchingAck {c : Config} {r : Regs} (hcode : r.rxCode = c.ackCode)
    (hmatch : ackMatches r = true) :
    r.classify c = { r with wait := false, status := .acked, ackSrc := false, diag := .none } := by
  rcases classify_cases c r with ⟨-, h⟩ | ⟨hother, -⟩ | ⟨hother, -⟩ | ⟨hother, -⟩
  · exact h.trans (if_pos hmatch)
  all_goals exact absurd hcode hother

/-- A candidate whose payload is the one byte `LASTCODE` matches once it is committed (R212). -/
theorem ackMatches_commitFrame {c : Config} {b : List Byte} {f : Frame} (parses : parse c b = .ok f)
    {r : Regs} (hlen : byteAt b 3 = 1) (hcode : byteAt b 12 = r.lastCode) :
    ackMatches (r.commitFrame f) = true := by
  have hbyte : replyByte (r.commitFrame f) 0 = byteAt b 12 :=
    replyByte_commitFrame parses r (by simp [hlen])
  have hrxLen : f.len = 1 := by
    rw [(parse_ok parses).1]
    exact hlen
  have hpayload : byteAt (r.commitFrame f).rxPayload.toList 0 = r.lastCode := hbyte.trans hcode
  rw [ackMatches, hpayload]
  simp [hrxLen]

/-! ### What an operation emits -/

/-- The held bytes are the first `TXLEN` entries of `TXBUF`. -/
theorem heldFrame_eq (r : Regs) : heldFrame r = r.txBuf.take r.txLen.toNat := rfl

/-- The held bytes after ENCODE commits a frame that fits `TXBUF` and that `TXLEN` can count (R115). -/
theorem heldFrame_holdFrame {c : Config} {frame : List Byte} (r : Regs)
    (hfits : frame.length ≤ c.txBufSize) (hcounts : frame.length ≤ 255) :
    heldFrame (r.holdFrame c frame) = frame := by
  rw [heldFrame_eq, Regs.holdFrame_txBuf, Regs.holdFrame_txLen, frameLength_toNat hcounts,
    filledBuffer_eq hfits, List.take_left]

/-- All an operation can emit: nothing, `Evt` alone, or, by SEND, the held frame with its trigger. -/
theorem events_cases {i : Instr} {s t : State} (h : exec i s = .next t) :
    t.events = [] ∨ t.events = [.evt] ∨
      (i = .send ∧ t.events = [.txFrame (heldFrame s.regs), .txTrigger, .evt]) := by
  cases i with
  | encode origin ecc code payload now =>
    rcases execEncode_cases origin ecc code payload now s with ⟨-, e⟩ | ⟨-, -, e⟩ | ⟨-, -, e⟩ <;>
      cases e.symm.trans h <;> exact .inl rfl
  | decode b =>
    rcases execDecode_cases b s with ⟨_, -, e⟩ | ⟨_, -, e⟩ <;>
      cases e.symm.trans h <;> exact .inl rfl
  | receive b =>
    rcases execReceive_cases b s with ⟨_, -, e⟩ | ⟨_, -, -, e⟩ | ⟨_, -, -, e⟩ <;>
      cases e.symm.trans h
    · exact .inl rfl
    · exact .inl rfl
    · exact .inr (.inl rfl)
  | send =>
    rcases execSend_cases s with ⟨-, e⟩ | ⟨-, -, e⟩ | ⟨-, -, -, e⟩ | ⟨-, -, -, -, e⟩ |
      ⟨-, -, -, -, e⟩ <;> cases e.symm.trans h
    · exact .inl rfl
    · exact .inl rfl
    · exact .inl rfl
    · exact .inl rfl
    · exact .inr (.inr ⟨rfl, rfl⟩)
  | tick =>
    cases (execTick_eq s).symm.trans h
    rw [State.complete_events]
    split
    · exact .inr (.inl rfl)
    · exact .inl rfl
  | abort =>
    rcases execAbort_cases s with ⟨-, e⟩ | ⟨-, e⟩ <;> cases e.symm.trans h <;> exact .inl rfl
  | tag b =>
    cases (execTag_eq b s).symm.trans h
    exact .inl rfl
  | read addr =>
    rcases execRead_cases addr s with ⟨-, e⟩ | ⟨_, -, e⟩ <;>
      cases e.symm.trans h <;> exact .inl rfl

/-! ### Repeating an operation -/

/-- No operation reads the response and events of the one before, and each writes both. -/
theorem exec_ignores_output (i : Instr) (s : State) (response : Option (List Byte))
    (events : List Event) :
    exec i { s with response := response, events := events } = exec i s := by
  cases i <;> rfl

end Sys2Proof.Machine

namespace Sys2Proof.Proofs

open Sys2Proof.Machine

/-- Settles O48: an answer that wrote no register leaves a state the operation cannot tell from the first;
holding a frame and committing one are idempotent; a second ABORT finds nothing held. -/
theorem repeatedOperationLeavesTheSameRegisters :
    Obligations.RepeatedOperationLeavesTheSameRegisters := by
  intro i s t hsend htick hreceive hexec
  cases effect_of_exec hexec with
  | raised | answered => exact ⟨_, (exec_ignores_output i s _ _).trans hexec, rfl⟩
  | received b | classified b => exact absurd rfl (hreceive b)
  | started => exact absurd rfl hsend
  | ticked => exact absurd rfl htick
  | held =>
    obtain ⟨u, hu, again⟩ := exec_effect _ _
    refine ⟨u, hu, ?_⟩
    cases again <;> rfl
  | parsed b f d ev parses =>
    obtain ⟨u, hu, again⟩ := exec_effect (.decode b) (s.complete (s.regs.commitFrame f) d ev)
    refine ⟨u, hu, ?_⟩
    cases again with
    | raised | answered => rfl
    | parsed _ f' _ _ parses' =>
      cases parses.symm.trans parses'
      rfl
  | cleared d ev =>
    obtain ⟨u, hu, again⟩ := exec_effect .abort (s.complete (s.regs.clearTx s.config) d ev)
    refine ⟨u, hu, ?_⟩
    cases again with
    | raised | answered => rfl
    | cleared _ _ holds => exact absurd holds Bool.false_ne_true

/-- Settles O44: of the outputs an operation can have, only SEND's holds a transmission. -/
theorem onlySendTransmits : Obligations.OnlySendTransmits := by
  intro i s t bytes hexec htransmits
  rcases events_cases hexec with h | h | ⟨rfl, h⟩
  · simp [h] at htransmits
  · simp [h] at htransmits
  · exact ⟨rfl, h⟩

/-- Settles O35: the first of the two clears `WAIT`, and the second then finds no command outstanding. -/
theorem firstOfReplyAndTimeoutWins : Obligations.FirstOfReplyAndTimeoutWins := by
  intro s b hacceptable hwait hlast hcode hlen hack
  have parses := parse_of_acceptable hacceptable
  constructor
  · have hclassified := classify_of_matchingAck (c := s.config)
      (r := s.regs.commitFrame (frameFields s.config.key b)) hcode
      (ackMatches_commitFrame parses hlen hack)
    refine ⟨_, _, exec_receive_of_waiting parses hwait, execTick_eq _, ?_⟩
    simp only [State.complete_regs, State.complete_config, State.complete_events, hclassified]
    rw [tick_of_idle _ rfl]
    exact ⟨rfl, rfl, rfl, rfl⟩
  · have htimeout := tick_of_timeout hwait hlast
    refine ⟨_, _, execTick_eq s, exec_receive_of_idle parses ?_, ?_⟩
    · rw [State.complete_regs, htimeout]
    · simp [htimeout]

/-- Settles O25: ENCODE leaves the link and `WAIT` alone, so SEND finds its frame held and ready. -/
theorem sendTransmitsTheEncodedFrame : Obligations.SendTransmitsTheEncodedFrame := by
  intro s origin ecc code payload now hfits hne hmem hwait hlink haccept
  have hlength := encodedFrame_length s.config.key origin ecc code payload now
  have hsize : (encodedFrame s.config.key origin ecc code payload now).length ≤ s.config.txBufSize :=
    hlength.trans_le (Nat.add_le_add_left hfits 12)
  refine ⟨_, _, _, _, exec_encode_of_accepted ecc code now hfits (registered_of_mem hne hmem), rfl,
    hlength, exec_send_of_ready hwait hlink rfl haccept, rfl, heldFrame_eq _, fun hcounts => ?_, ?_,
    rfl, rfl⟩
  · have hcounts' := hlength.trans_le hcounts
    exact ⟨(frameLength_toNat hcounts').trans hlength, heldFrame_holdFrame _ hsize hcounts'⟩
  · exact byteAt_filledBuffer (i := 2) hsize (by omega)

end Sys2Proof.Proofs
end

section
/-!
PROOF. The statements of spec/30_encoding.md: the messages of the operations and their round trips (R88 to
R92), the messages that are no operation (R91), and the pseudo-operations (R95).
-/

namespace Sys2Proof

open Sys2Proof.Machine

/-! ### The operation a message spells out -/

/-- `Spells m i`: the message `m` is laid out as R88 to R90 ask, with the length R92 gives, and its operands are
those of the operation `i`.  It is the decoder without its errors (`decodeMessage_ok_iff`). -/
inductive Spells (m : List Byte) : Instr → Prop
  | encode (ecc : Bool) (op : byteAt m 0 = 0x01) (length : m.length = 9 + (byteAt m 4).toNat)
      (eccByte : byteAt m 2 = eccOperandByte ecc) :
      Spells m (.encode (byteAt m 1) ecc (byteAt m 3) (m.drop 9) (be32At m 5))
  | decode (op : byteAt m 0 = 0x02) (length : m.length = 3 + (be16At m 1).toNat) :
      Spells m (.decode (m.drop 3))
  | receive (op : byteAt m 0 = 0x03) (length : m.length = 3 + (be16At m 1).toNat) :
      Spells m (.receive (m.drop 3))
  | send (op : byteAt m 0 = 0x04) (length : m.length = 1) : Spells m .send
  | tick (op : byteAt m 0 = 0x05) (length : m.length = 1) : Spells m .tick
  | abort (op : byteAt m 0 = 0x06) (length : m.length = 1) : Spells m .abort
  | tag (op : byteAt m 0 = 0x07) (length : m.length = 3 + (be16At m 1).toNat) :
      Spells m (.tag (m.drop 3))
  | read (op : byteAt m 0 = 0x08) (length : m.length = 3) : Spells m (.read (be16At m 1))

/-- The ECC operand is read from the byte that stands for it and from no other (R88). -/
theorem eccOperand_ok_iff {b : Byte} {ecc : Bool} :
    eccOperand b = .ok ecc ↔ b = eccOperandByte ecc := by
  refine ⟨fun h => ?_, fun h => h ▸ eccOperand_eccOperandByte ecc⟩
  unfold eccOperand at h
  split at h
  · cases h
    assumption
  · split at h
    · cases h
      assumption
    · cases h

theorem decodeFEnc_ok_iff {m : List Byte} {i : Instr} :
    decodeFEnc m = .ok i ↔ ∃ ecc, byteAt m 2 = eccOperandByte ecc ∧
      .encode (byteAt m 1) ecc (byteAt m 3) (m.drop 9) (be32At m 5) = i := by
  simp only [← eccOperand_ok_iff]
  unfold decodeFEnc
  cases eccOperand (byteAt m 2) <;> simp

/-- The decoder reads a message exactly when its length is the one its first bytes announce and its operands
can be read. -/
theorem decodeMessage_ok_iff_length {m : List Byte} {i : Instr} :
    decodeMessage m = .ok i ↔ messageLength m = some m.length ∧ decodeOperands m = .ok i := by
  unfold decodeMessage
  by_cases hempty : m = []
  · subst hempty
    simp [messageLength, byteAt]
  · rw [if_neg hempty]
    cases hlength : messageLength m with
    | none => simp
    | some total =>
      by_cases htotal : m.length = total
      · simp [htotal]
      · simp [htotal, Ne.symm htotal]

theorem decodeMessage_ok_iff {m : List Byte} {i : Instr} :
    decodeMessage m = .ok i ↔ Spells m i := by
  rw [decodeMessage_ok_iff_length]
  constructor
  · rintro ⟨hlength, hoperands⟩
    have hop : ∀ {b : Byte}, (byteAt m 0).toNat = b.toNat → byteAt m 0 = b := BitVec.eq_of_toNat_eq
    unfold messageLength at hlength
    unfold decodeOperands at hoperands
    split at hoperands
    case h_1 h =>
      simp only [h, Option.some.injEq] at hlength
      obtain ⟨ecc, hecc, rfl⟩ := decodeFEnc_ok_iff.mp hoperands
      exact .encode ecc (hop h) hlength.symm hecc
    case h_2 h | h_3 h | h_4 h | h_5 h | h_6 h | h_7 h | h_8 h =>
      simp only [h, Option.some.injEq] at hlength
      cases hoperands
      constructor
      · exact hop h
      · exact hlength.symm
    case h_9 => cases hoperands
  · intro h
    cases h with
    | encode ecc op length eccByte =>
      simp only [messageLength, decodeOperands, op, length]
      exact ⟨rfl, decodeFEnc_ok_iff.mpr ⟨ecc, eccByte, rfl⟩⟩
    | decode op length | receive op length | send op length | tick op length | abort op length
    | tag op length | read op length =>
      simp only [messageLength, decodeOperands, op, length]
      exact ⟨rfl, rfl⟩

/-! ### The messages of the operations (R88) -/

/-- The first bytes of a well-formed operation's message announce its length (R92). -/
theorem messageLength_encodeMessage : ∀ i : Instr, Laws.MessageLength.Statement i
  | .encode origin ecc code payload now => Laws.MessageLength.encode origin ecc code payload now
  | .decode input => Laws.MessageLength.decode input
  | .receive input => Laws.MessageLength.receive input
  | .send => Laws.MessageLength.send
  | .tick => Laws.MessageLength.tick
  | .abort => Laws.MessageLength.abort
  | .tag input => Laws.MessageLength.tag input
  | .read addr => Laws.MessageLength.read addr

/-- The operands of an operation's message are the operation's, each at its offset (R89). -/
theorem decodeOperands_encodeMessage : ∀ i : Instr, decodeOperands (encodeMessage i) = .ok i
  | .encode origin ecc code payload now => by
    have hnow : be32At (encodeMessage (.encode origin ecc code payload now)) 5 = now := be32_extract now
    show decodeFEnc (encodeMessage (.encode origin ecc code payload now)) = _
    exact decodeFEnc_ok_iff.mpr ⟨ecc, rfl, by rw [hnow]; rfl⟩
  | .read addr => congrArg (fun a => Except.ok (Instr.read a)) (be16_extract addr)
  | .decode _ | .receive _ | .send | .tick | .abort | .tag _ => rfl

/-- A sequence from offset `i` on is its byte `i` and what follows. -/
theorem byteAt_cons_drop {b : List Byte} {i : Nat} (h : i < b.length) :
    byteAt b i :: b.drop (i + 1) = b.drop i := by
  rw [byteAt_eq_getElem h, List.getElem_cons_drop]

/-- An `F-NONE` message is its `OP`. -/
theorem eq_byteAt_of_length_eq_one {m : List Byte} (length : m.length = 1) : m = [byteAt m 0] := by
  obtain ⟨op, rfl⟩ := List.length_eq_one_iff.mp length
  rfl

/-- An `F-BUF` message of the length it announces is put together again from its `OP` and its input, and the
input is no longer than two bytes can say. -/
theorem encodeFBuf_drop {m : List Byte} (length : m.length = 3 + (be16At m 1).toNat) :
    (m.drop 3).length ≤ 65535 ∧ encodeFBuf (byteAt m 0) (m.drop 3) = m := by
  have hn := (be16At m 1).isLt
  have hinput : (m.drop 3).length = (be16At m 1).toNat := by
    rw [List.length_drop]
    omega
  refine ⟨by omega, ?_⟩
  have hbytes : bytes16 (be16At m 1) = [byteAt m 1, byteAt m 2] := bytes16_be16 _ _
  rw [encodeFBuf, hinput, BitVec.ofNat_toNat, BitVec.setWidth_eq, hbytes]
  show byteAt m 0 :: byteAt m 1 :: byteAt m 2 :: m.drop 3 = m
  simp (disch := omega) only [byteAt_cons_drop, List.drop_zero]

/-- An `F-ENC` message of the length it announces is put together again from its operands, and the payload is no
longer than one byte can say. -/
theorem encodeFEnc_drop {m : List Byte} {ecc : Bool} (op : byteAt m 0 = 0x01)
    (length : m.length = 9 + (byteAt m 4).toNat) (eccByte : byteAt m 2 = eccOperandByte ecc) :
    (m.drop 9).length ≤ 255 ∧
      encodeMessage (.encode (byteAt m 1) ecc (byteAt m 3) (m.drop 9) (be32At m 5)) = m := by
  have hlen := (byteAt m 4).isLt
  have hpayload : (m.drop 9).length = (byteAt m 4).toNat := by
    rw [List.length_drop]
    omega
  refine ⟨by omega, ?_⟩
  have hnow : bytes32 (be32At m 5) = [byteAt m 5, byteAt m 6, byteAt m 7, byteAt m 8] :=
    bytes32_be32 _ _ _ _
  rw [encodeMessage, hpayload, BitVec.ofNat_toNat, BitVec.setWidth_eq, hnow, ← op, ← eccByte]
  show byteAt m 0 :: byteAt m 1 :: byteAt m 2 :: byteAt m 3 :: byteAt m 4 :: byteAt m 5 ::
    byteAt m 6 :: byteAt m 7 :: byteAt m 8 :: m.drop 9 = m
  simp (disch := omega) only [byteAt_cons_drop, List.drop_zero]

/-- An `F-ADDR` message is put together again from its address. -/
theorem encodeFAddr_be16At {m : List Byte} (op : byteAt m 0 = 0x08) (length : m.length = 3) :
    encodeMessage (.read (be16At m 1)) = m := by
  have hbytes : bytes16 (be16At m 1) = [byteAt m 1, byteAt m 2] := bytes16_be16 _ _
  have hend : m.drop 3 = [] := List.drop_of_length_le length.le
  rw [encodeMessage, hbytes, ← op]
  show byteAt m 0 :: byteAt m 1 :: byteAt m 2 :: [] = m
  rw [← hend]
  simp (disch := omega) only [byteAt_cons_drop, List.drop_zero]

/-- The operation a message spells out is well-formed, and the message is its message. -/
theorem Spells.wellFormed_and_encodeMessage {m : List Byte} {i : Instr} (h : Spells m i) :
    i.wellFormed = true ∧ encodeMessage i = m := by
  cases h with
  | encode ecc op length eccByte =>
    obtain ⟨hfits, hmessage⟩ := encodeFEnc_drop op length eccByte
    exact ⟨decide_eq_true hfits, hmessage⟩
  | decode op length | receive op length | tag op length =>
    obtain ⟨hfits, hmessage⟩ := encodeFBuf_drop length
    rw [op] at hmessage
    exact ⟨decide_eq_true hfits, hmessage⟩
  | send op length | tick op length | abort op length =>
    have hmessage := eq_byteAt_of_length_eq_one length
    rw [op] at hmessage
    exact ⟨rfl, hmessage.symm⟩
  | read op length => exact ⟨rfl, encodeFAddr_be16At op length⟩

/-! ### The messages that are no operation (R91) -/

theorem exists_eq_eccOperandByte_iff {b : Byte} :
    (∃ ecc, b = eccOperandByte ecc) ↔ b = 0x00 ∨ b = 0x01 := by
  simp [eccOperandByte]

/-- The messages that spell out an operation, by their `OP`, length and ECC operand (R88, R90, R92). -/
theorem exists_spells_iff {m : List Byte} {op : Nat} (hop : (byteAt m 0).toNat = op) :
    (∃ i, Spells m i) ↔
      (op = 1 ∧ m.length = 9 + (byteAt m 4).toNat ∧ (byteAt m 2 = 0x00 ∨ byteAt m 2 = 0x01)) ∨
      ((op = 2 ∨ op = 3 ∨ op = 7) ∧ m.length = 3 + (be16At m 1).toNat) ∨
      ((op = 4 ∨ op = 5 ∨ op = 6) ∧ m.length = 1) ∨
      (op = 8 ∧ m.length = 3) := by
  have toByte : ∀ {b : Byte}, op = b.toNat → byteAt m 0 = b := fun h =>
    BitVec.eq_of_toNat_eq (hop.trans h)
  rw [← exists_eq_eccOperandByte_iff]
  constructor
  · rintro ⟨i, h⟩
    cases h with
    | encode ecc opByte length eccByte =>
      rw [opByte] at hop
      exact .inl ⟨hop.symm, length, ecc, eccByte⟩
    | decode opByte length | receive opByte length | tag opByte length | send opByte length
    | tick opByte length | abort opByte length | read opByte length =>
      rw [opByte] at hop
      simp [← hop, length]
  · rintro (⟨h, length, ecc, eccByte⟩ | ⟨h | h | h, length⟩ | ⟨h | h | h, length⟩ | ⟨h, length⟩)
    · exact ⟨_, .encode ecc (toByte h) length eccByte⟩
    · exact ⟨_, .decode (toByte h) length⟩
    · exact ⟨_, .receive (toByte h) length⟩
    · exact ⟨_, .tag (toByte h) length⟩
    · exact ⟨_, .send (toByte h) length⟩
    · exact ⟨_, .tick (toByte h) length⟩
    · exact ⟨_, .abort (toByte h) length⟩
    · exact ⟨_, .read (toByte h) length⟩

end Sys2Proof

namespace Sys2Proof.Machine

/-- A step that takes a message which is no operation raises IllegalOp (R91). -/
theorem step_eq_raise {s : State} {m : List Byte} {l a : Bool} {rest : List HostInput}
    (hqueue : s.hostQueue = .op m l a :: rest) (hillegal : ¬∃ i, decodeMessage m = .ok i) :
    step s = .next ((s.takeOp l a rest).raise .illegalOp) := by
  unfold step
  rw [hqueue]
  cases hdecode : decodeMessage m with
  | error e => simp only [hdecode]
  | ok i => exact absurd ⟨i, hdecode⟩ hillegal

/-! ### The answered frame (R95, R115) -/

/-- No error's code is `OK` (R250). -/
theorem Err.code_ne_okCode (e : Err) : e.code ≠ okCode := by
  cases e <;> decide

/-- An ENCODE that answered `OK` held a frame that fits `TXBUF`, and answered its `TXLEN` and bytes (R115). -/
theorem exec_encode_of_ok {s t : State} {origin : Byte} {ecc : Bool} {code : Byte}
    {payload : List Byte} {now : Word} {data : List Byte}
    (hexec : exec (.encode origin ecc code payload now) s = .next t)
    (hok : t.response = some (okCode :: data)) :
    ∃ frame : List Byte, frame.length = 12 + payload.length ∧ frame.length ≤ s.config.txBufSize ∧
      data = frameLength frame :: frame ∧ t.regs = s.regs.holdFrame s.config frame := by
  have hraise : ∀ e, s.raise e ≠ t := fun e h => by
    subst h
    simp [e.code_ne_okCode] at hok
  rcases execEncode_cases origin ecc code payload now s with ⟨-, h⟩ | ⟨-, -, h⟩ | ⟨hfits, -, h⟩
  · exact absurd (Host.Outcome.next.inj (h.symm.trans hexec)) (hraise _)
  · exact absurd (Host.Outcome.next.inj (h.symm.trans hexec)) (hraise _)
  · cases h.symm.trans hexec
    have hlength := encodedFrame_length s.config.key origin ecc code payload now
    refine ⟨_, hlength, hlength.trans_le (Nat.add_le_add_left hfits 12), ?_, rfl⟩
    simpa using hok.symm

end Sys2Proof.Machine

namespace Sys2Proof.Proofs

open Sys2Proof.Machine

/-- Settles O1: the message has the length it announces, and each operand is read where it was written. -/
theorem encodedOperationDecodesToItself : Obligations.EncodedOperationDecodesToItself :=
  fun i hwf => decodeMessage_ok_iff_length.mpr
    ⟨messageLength_encodeMessage i hwf, decodeOperands_encodeMessage i⟩

/-- Settles O2: by the formats, each byte of the message is an operand, part of one, or fixed by its length. -/
theorem decodedMessageEncodesToItself : Obligations.DecodedMessageEncodesToItself :=
  fun _ _ h => (decodeMessage_ok_iff.mp h).wellFormed_and_encodeMessage

/-- Settles O4: the illegal messages are those laid out by no format, which for each `OP` leaves a wrong length
or, for `F-ENC`, a bad ECC operand; a message too short to hold its length operand has a wrong length too. -/
theorem illegalMessagesRaiseIllegalOp : Obligations.IllegalMessagesRaiseIllegalOp := by
  intro m op illegal
  have hiff : illegal ↔ ¬∃ i, decodeMessage m = .ok i := by
    have hempty : m = [] → op = 0 := fun h => by
      subst h
      rfl
    simp only [decodeMessage_ok_iff, exists_spells_iff (op := op) rfl, illegal]
    grind
  exact ⟨hiff, fun s l a rest hqueue hillegal => step_eq_raise hqueue (hiff.mp hillegal)⟩

/-- Settles O10: an ENCODE that answers `OK` holds the frame it answers, with zeros behind it. -/
theorem pseudoOperationsAreAliases : Obligations.PseudoOperationsAreAliases := by
  refine ⟨fun _ => ⟨rfl, rfl, rfl, fun _ => ⟨List.length_replicate, fun _ => List.eq_of_mem_replicate⟩⟩,
    fun s t origin ecc code payload now data hexec hok => ?_⟩
  obtain ⟨frame, hlength, hfits, rfl, hregs⟩ := exec_encode_of_ok hexec hok
  have hheld : t.regs.txBuf.take (12 + payload.length) = frame := by
    rw [hregs, Regs.holdFrame_txBuf, filledBuffer_eq hfits, ← hlength, List.take_left]
  have hloopback : AsmLine.loopback.operations (0x00 :: frameLength frame :: frame) = [.decode frame] := rfl
  refine ⟨by rw [hloopback, hheld], fun hcounts => ?_⟩
  have htxLen : t.regs.txLen.toNat = 12 + payload.length := by
    rw [hregs, Regs.holdFrame_txLen, frameLength_toNat (hlength.trans_le hcounts), hlength]
  rw [hloopback, htxLen, hheld]

/-- Settles O3: each message is the one the encoder writes for the operation beside it. -/
theorem listedMessagesDecodeToTheirOperations : Obligations.ListedMessagesDecodeToTheirOperations :=
  ⟨encodedOperationDecodesToItself (.encode 0x01 true 0x40 [] 1700000000) rfl,
    encodedOperationDecodesToItself (.decode [0x01, 0x02, 0x03]) rfl,
    encodedOperationDecodesToItself (.receive [0xEE]) rfl,
    encodedOperationDecodesToItself .send rfl,
    encodedOperationDecodesToItself .tick rfl,
    encodedOperationDecodesToItself .abort rfl,
    encodedOperationDecodesToItself (.tag [0x00]) rfl,
    encodedOperationDecodesToItself (.read 0x16D) rfl⟩

end Sys2Proof.Proofs
end

section
/-!
PROOF. The statements of spec/40_frame_encode.md: the frame that ENCODE builds, tags and holds (R113 to R115),
and the two checks before it (R111, R112).
-/

namespace Sys2Proof.Machine

/-! ### The checks of ENCODE (R111, R112) -/

theorem registered_eq_false_iff {c : Config} {origin : Byte} :
    registered c origin = false ↔ origin = 0x00 ∨ origin ∉ c.stations := by
  simp [registered, or_iff_not_imp_left]

/-- ENCODE of a payload over `PAYLOAD_MAX`, whatever the station is (R111). -/
theorem exec_encode_of_long {s : State} (origin : Byte) (ecc : Bool) (code : Byte)
    {payload : List Byte} (now : Word) (hlong : s.config.payloadMax.val < payload.length) :
    exec (.encode origin ecc code payload now) s = .next (s.raise .payloadTooLong) := by
  rcases execEncode_cases origin ecc code payload now s with ⟨-, h⟩ | ⟨hfits, -⟩ | ⟨hfits, -⟩
  · exact h
  all_goals omega

/-- ENCODE of a payload that fits, for a station that is not registered (R112). -/
theorem exec_encode_of_unregistered {s : State} {origin : Byte} (ecc : Bool) (code : Byte)
    {payload : List Byte} (now : Word) (hfits : payload.length ≤ s.config.payloadMax.val)
    (hstation : registered s.config origin = false) :
    exec (.encode origin ecc code payload now) s = .next (s.raise .unknownStation) := by
  rcases execEncode_cases origin ecc code payload now s with ⟨hlong, -⟩ | ⟨-, -, h⟩ | ⟨-, hknown, -⟩
  · omega
  · exact h
  · exact absurd (hstation.symm.trans hknown) Bool.false_ne_true

/-! ### The transmit buffer after ENCODE (R115) -/

/-- The transmit buffer after ENCODE holds its frame: the frame, then zeros where a longer payload would stand. -/
theorem filledBuffer_encodedFrame {c : Config} (key : Word) (origin : Byte) (ecc : Bool) (code : Byte)
    {payload : List Byte} (now : Word) (hfits : payload.length ≤ c.payloadMax.val) :
    filledBuffer c.txBufSize (encodedFrame key origin ecc code payload now) =
      encodedFrame key origin ecc code payload now ++ zeros (c.payloadMax.val - payload.length) := by
  have hlength := encodedFrame_length key origin ecc code payload now
  have hzeros : c.txBufSize - (12 + payload.length) = c.payloadMax.val - payload.length :=
    Nat.add_sub_add_left 12 _ _
  rw [filledBuffer_eq (hlength.trans_le (Nat.add_le_add_left hfits 12)), hlength, hzeros]

end Sys2Proof.Machine

namespace Sys2Proof.Proofs

open Sys2Proof.Machine

/-- Settles O11: the accepted ENCODE holds the frame it builds, which is shorter than `TXBUF` by the bytes that
the payload leaves unused. -/
theorem encodeHoldsTheTaggedFrame : Obligations.EncodeHoldsTheTaggedFrame := by
  intro s origin ecc code payload now hfits hne hmem header mac frame
  have hframe : encodedFrame s.config.key origin ecc code payload now = frame := rfl
  have hlength : frame.length = 12 + payload.length := encodedFrame_length ..
  have hbuffer : filledBuffer s.config.txBufSize frame =
      frame ++ zeros (s.config.payloadMax.val - payload.length) := filledBuffer_encodedFrame _ _ _ _ _ hfits
  refine ⟨frameLength frame, fun hcounts => ?_, ?_⟩
  · rw [frameLength_toNat (hlength.trans_le hcounts), hlength]
  · rw [exec_encode_of_accepted ecc code now hfits (registered_of_mem hne hmem), hframe, ← hbuffer]
    rfl

/-- Settles O12: each refusal is the raise of its check, which writes the response and no register. -/
theorem encodeRefusesLongPayloadsAndUnknownStations :
    Obligations.EncodeRefusesLongPayloadsAndUnknownStations :=
  fun _ origin ecc code _ now =>
    ⟨exec_encode_of_long origin ecc code now,
      fun hfits hstation =>
        exec_encode_of_unregistered ecc code now hfits (registered_eq_false_iff.mpr hstation)⟩

end Sys2Proof.Proofs
end

section
/-!
PROOF. The statements of spec/41_frame_decode.md: which candidates the parse accepts (R131 to R136), what DECODE
commits and answers (R137 to R139), that it undoes ENCODE (R142), and that it does not read `PAYLOAD_MAX` (R133).
-/

namespace Sys2Proof.Machine

/-! ### Which candidates the parse accepts (R131 to R136) -/

/-- Acceptance in the terms of the parse; room for the payload implies room for the header. -/
theorem acceptable_iff {c : Config} {b : List Byte} :
    Acceptable c b ↔ 12 + payloadLength b ≤ b.length ∧ legalEccFlag (byteAt b 1) = true ∧
      (c.macVerify = true → (frameFields c.key b).macOk = true) := by
  rw [Acceptable, legalEccFlag_iff, frameFields_macOk_iff]
  constructor
  · rintro ⟨-, hflag, hlength, hmac⟩
    exact ⟨hlength, hflag, hmac⟩
  · rintro ⟨hlength, hflag, hmac⟩
    exact ⟨(Nat.le_add_right 12 _).trans hlength, hflag, hlength, hmac⟩

theorem acceptable_of_parse_ok {c : Config} {b : List Byte} {f : Frame} (parses : parse c b = .ok f) :
    Acceptable c b := by
  rcases parse_cases c b with ⟨-, e⟩ | ⟨-, -, e⟩ | ⟨-, -, -, e⟩ | ⟨-, -, -, -, e⟩ |
    ⟨hlength, hflag, hmac, -⟩
  case inr.inr.inr.inr => exact acceptable_iff.mpr ⟨hlength, hflag, hmac⟩
  all_goals cases e.symm.trans parses

/-! ### The first failing check (R131 to R133, R136) -/

theorem parse_of_short {c : Config} {b : List Byte} (hshort : b.length < 12) :
    parse c b = .error .tooShort :=
  if_pos hshort

theorem parse_of_illegalFlag {c : Config} {b : List Byte} (hheader : 12 ≤ b.length)
    (hflag : ¬(byteAt b 1 = 0xAA ∨ byteAt b 1 = 0x55)) : parse c b = .error .invalidEccFlag := by
  rw [← legalEccFlag_iff] at hflag
  rcases parse_cases c b with ⟨hshort, -⟩ | ⟨-, -, h⟩ | ⟨-, hlegal, -⟩ | ⟨-, hlegal, -⟩ | ⟨-, hlegal, -⟩
  · omega
  · exact h
  all_goals exact absurd hlegal hflag

theorem parse_of_shortPayload {c : Config} {b : List Byte} (hheader : 12 ≤ b.length)
    (hflag : byteAt b 1 = 0xAA ∨ byteAt b 1 = 0x55) (hshort : b.length < 12 + payloadLength b) :
    parse c b = .error .tooShortForPayload := by
  rw [← legalEccFlag_iff] at hflag
  rcases parse_cases c b with ⟨hshort', -⟩ | ⟨-, hillegal, -⟩ | ⟨-, -, -, h⟩ | ⟨hlong, -⟩ | ⟨hlong, -⟩
  · omega
  · exact absurd (hillegal.symm.trans hflag) Bool.false_ne_true
  · exact h
  all_goals omega

theorem parse_of_wrongTag {c : Config} {b : List Byte} (hlength : 12 + payloadLength b ≤ b.length)
    (hflag : byteAt b 1 = 0xAA ∨ byteAt b 1 = 0x55) (hverify : c.macVerify = true)
    (hmac : bytesFrom b 8 4 ≠ tag c.key (b.take 8 ++ zeros 4 ++ bytesFrom b 12 (byteAt b 3).toNat)) :
    parse c b = .error .invalidMac := by
  rw [← legalEccFlag_iff] at hflag
  rw [Ne, ← frameFields_macOk_iff] at hmac
  rcases parse_cases c b with ⟨hshort, -⟩ | ⟨-, hillegal, -⟩ | ⟨-, -, hshort, -⟩ | ⟨-, -, -, -, h⟩ |
    ⟨-, -, hgood, -⟩
  · omega
  · exact absurd (hillegal.symm.trans hflag) Bool.false_ne_true
  · omega
  · exact h
  · exact absurd (hgood hverify) hmac

/-- DECODE and RECEIVE of a candidate that fails the parse only raise its error (R218, R251). -/
theorem exec_of_parse_error {s : State} {b : List Byte} {i : Instr} {e : Err}
    (hi : i = .decode b ∨ i = .receive b) (fails : parse s.config b = .error e) :
    exec i s = .next (s.raise e) := by
  rcases hi with rfl | rfl
  · show execDecode b s = _
    simpa [fails] using execDecode_cases b s
  · show execReceive b s = _
    simpa [fails] using execReceive_cases b s

/-- DECODE of a candidate that parses commits its frame and answers it (R137, R138). -/
theorem exec_decode_of_parse_ok {s : State} {b : List Byte} {f : Frame} (parses : parse s.config b = .ok f) :
    exec (.decode b) s = .next (s.complete (s.regs.commitFrame f) (frameResponse f) []) := by
  show execDecode b s = _
  simpa [parses] using execDecode_cases b s

/-! ### The header as received (R138) -/

theorem bytesFrom_succ {b : List Byte} {off : Nat} (h : off < b.length) (n : Nat) :
    bytesFrom b off (n + 1) = byteAt b off :: bytesFrom b (off + 1) n := by
  rw [bytesFrom, ← byteAt_cons_drop h, List.take_succ_cons, bytesFrom]

/-- Four bytes of a sequence are the bytes of the word they write. -/
theorem bytesFrom_four {b : List Byte} {off : Nat} (h : off + 4 ≤ b.length) :
    bytesFrom b off 4 = bytes32 (be32At b off) := by
  rw [be32At, bytes32_be32, bytesFrom_succ (by omega), bytesFrom_succ (by omega), bytesFrom_succ (by omega),
    bytesFrom_succ (by omega)]
  rfl

/-- The header's 12 bytes by its fields: four bytes, the timestamp and the tag (R81). -/
theorem take_header {b : List Byte} (h : 12 ≤ b.length) :
    b.take 12 = [byteAt b 0, byteAt b 1, byteAt b 2, byteAt b 3] ++ bytes32 (be32At b 4) ++
      bytes32 (be32At b 8) := by
  rw [← bytesFrom_four (by omega), ← bytesFrom_four (by omega)]
  show bytesFrom b 0 12 = _
  iterate 4 rw [bytesFrom_succ (by omega)]
  have hsplit : bytesFrom b 4 8 = bytesFrom b 4 4 ++ bytesFrom b 8 4 := by
    rw [bytesFrom, List.take_add (i := 4) (j := 4), List.drop_drop]
    rfl
  simp [hsplit]

/-! ### Bytes past the frame (R134) -/

theorem payloadLength_append {b : List Byte} (h : 12 ≤ b.length) (extra : List Byte) :
    payloadLength (b ++ extra) = payloadLength b := by
  rw [payloadLength, byteAt_append_left (by omega), payloadLength]

/-- Every field of a candidate lies within its header and its payload, and so does what the tag is computed over. -/
theorem frameFields_append {b : List Byte} (key : Word) (h : 12 + payloadLength b ≤ b.length)
    (extra : List Byte) : frameFields key (b ++ extra) = frameFields key b := by
  have hbyte : ∀ i < 12, byteAt (b ++ extra) i = byteAt b i := fun i hi => byteAt_append_left (by omega) _
  have htake : ∀ n ≤ 12, (b ++ extra).take n = b.take n := fun n hn =>
    List.take_append_of_le_length (by omega)
  have hpayload : framePayload (b ++ extra) = framePayload b := by
    rw [framePayload, payloadLength_append (by omega), bytesFrom_append_left h, framePayload]
  have htag : bytesFrom (b ++ extra) 8 4 = bytesFrom b 8 4 := bytesFrom_append_left (by omega) _
  simp [frameFields, tagMatches, be32At, hbyte, htake, hpayload, htag]

theorem Acceptable.append {c : Config} {b : List Byte} (h : Acceptable c b) (extra : List Byte) :
    Acceptable c (b ++ extra) := by
  obtain ⟨hlength, hflag, hmac⟩ := acceptable_iff.mp h
  refine acceptable_iff.mpr ⟨?_, ?_, ?_⟩
  · rw [payloadLength_append (by omega), List.length_append]
    omega
  · rwa [byteAt_append_left (by omega)]
  · rwa [frameFields_append _ hlength]

theorem parse_append {c : Config} {b : List Byte} (h : Acceptable c b) (extra : List Byte) :
    parse c (b ++ extra) = parse c b := by
  rw [parse_of_acceptable (h.append extra), parse_of_acceptable h,
    frameFields_append _ (acceptable_iff.mp h).1]

/-! ### The fields of the frame that ENCODE builds (R81, R142) -/

section
variable (origin : Byte) (ecc : Bool) (code : Byte) (now : Word) {mac payload : List Byte}

/-- The bytes 8..11 of a frame are its tag's; the eight before them do not depend on it. -/
theorem frameBytes_tag (hmac : mac.length = 4) :
    bytesFrom (frameBytes origin ecc code now mac payload) 8 4 = mac :=
  List.take_left' hmac

theorem frameBytes_payload (hmac : mac.length = 4) (hpayload : payload.length ≤ 255) :
    framePayload (frameBytes origin ecc code now mac payload) = payload := by
  have hlen : payloadLength (frameBytes origin ecc code now mac payload) = payload.length :=
    (BitVec.toNat_ofNat _ _).trans (Nat.mod_eq_of_lt (by omega))
  have hdrop : (frameBytes origin ecc code now mac payload).drop 12 = payload :=
    List.drop_left' (by simp [hmac])
  rw [framePayload, hlen, bytesFrom, hdrop, List.take_length]

/-- The frame that ENCODE builds passes the tag check: with its tag zeroed again, it is what the tag was
computed over (R113, R114, R136). -/
theorem encodedFrame_macOk (key : Word) (hpayload : payload.length ≤ 255) :
    (frameFields key (encodedFrame key origin ecc code payload now)).macOk = true := by
  rw [frameFields_macOk_iff, ← framePayload_eq, encodedFrame, frameBytes_tag _ _ _ _ (tag_length _ _),
    frameBytes_payload _ _ _ _ (tag_length _ _) hpayload]
  rfl

theorem encodedFrame_acceptable (c : Config) (hpayload : payload.length ≤ 255) :
    Acceptable c (encodedFrame c.key origin ecc code payload now) := by
  refine acceptable_iff.mpr ⟨?_, ?_, fun _ => encodedFrame_macOk origin ecc code now c.key hpayload⟩
  · rw [encodedFrame_length, payloadLength, encodedFrame_lengthByte _ _ _ _ _ hpayload]
  · show legalEccFlag (eccFlagByte ecc) = true
    cases ecc <;> rfl

/-- The parse of a frame that ENCODE built under the same configuration answers the operands it was built
from (R142). -/
theorem parse_encodedFrame (c : Config) (hpayload : payload.length ≤ 255) :
    let frame := encodedFrame c.key origin ecc code payload now
    parse c frame = .ok
      { header := frame.take 12, origin := origin, ecc := ecc, code := code
        len := BitVec.ofNat 8 payload.length, ts := now, mac := be32At frame 8
        payload := payload, macOk := true } := by
  intro frame
  have hecc : (byteAt frame 1 == 0xAA) = ecc := by
    show (eccFlagByte ecc == 0xAA) = ecc
    cases ecc <;> rfl
  have hts : be32At frame 4 = now := be32_extract now
  have hpay : framePayload frame = payload := frameBytes_payload _ _ _ _ (tag_length _ _) hpayload
  have hmac : tagMatches c.key frame (framePayload frame) = true :=
    encodedFrame_macOk origin ecc code now c.key hpayload
  rw [parse_of_acceptable (encodedFrame_acceptable origin ecc code now c hpayload), frameFields, hecc, hts,
    hmac, hpay]
  rfl

end

/-! ### Which parameters of the configuration the parse reads (R133) -/

/-- The parse reads `KEY` and `MAC_VERIFY` alone. -/
theorem parse_congr {c c' : Config} (hkey : c.key = c'.key) (hverify : c.macVerify = c'.macVerify)
    (b : List Byte) : parse c b = parse c' b := by
  unfold parse
  rw [hkey, hverify]

/-- The classifier reads the three reply codes alone. -/
theorem Regs.classify_congr {c c' : Config} (hack : c.ackCode = c'.ackCode) (hnack : c.nackCode = c'.nackCode)
    (hping : c.pingCode = c'.pingCode) (r : Regs) : r.classify c = r.classify c' := by
  unfold Regs.classify
  rw [hack, hnack, hping]

theorem execDecode_runsAlikeUnder (b : List Byte) {s : State} {c : Config} (hkey : c.key = s.config.key)
    (hverify : c.macVerify = s.config.macVerify) : RunsAlikeUnder (execDecode b) s c := by
  have other := execDecode_cases b (s.withConfig c)
  rw [State.withConfig_config, parse_congr hkey hverify] at other
  rcases execDecode_cases b s with ⟨e, parses, h⟩ | ⟨f, parses, h⟩
  · exact runsAlikeUnder_of_raise h (by simpa [parses] using other)
  · exact runsAlikeUnder_of_complete h (by simpa [parses] using other)

theorem execReceive_runsAlikeUnder (b : List Byte) {s : State} {c : Config} (hkey : c.key = s.config.key)
    (hverify : c.macVerify = s.config.macVerify) (hack : c.ackCode = s.config.ackCode)
    (hnack : c.nackCode = s.config.nackCode) (hping : c.pingCode = s.config.pingCode) :
    RunsAlikeUnder (execReceive b) s c := by
  have other := execReceive_cases b (s.withConfig c)
  simp only [State.withConfig_config, State.withConfig_regs, parse_congr hkey hverify,
    Regs.classify_congr hack hnack hping] at other
  rcases execReceive_cases b s with ⟨e, parses, h⟩ | ⟨f, parses, hwait, h⟩ | ⟨f, parses, hwait, h⟩
  · exact runsAlikeUnder_of_raise h (by simpa [parses] using other)
  · exact runsAlikeUnder_of_complete h (by simpa [parses, hwait] using other)
  · exact runsAlikeUnder_of_complete h (by simpa [parses, hwait] using other)

theorem execTag_runsAlikeUnder (b : List Byte) {s : State} {c : Config} (hkey : c.key = s.config.key) :
    RunsAlikeUnder (execTag b) s c := by
  refine runsAlikeUnder_of_complete (execTag_eq b s) ((execTag_eq b (s.withConfig c)).trans ?_)
  rw [State.withConfig_config, hkey, State.withConfig_regs]

/-- SEND with nothing held only raises, by checks that read no parameter (R202 to R204). -/
theorem execSend_runsAlikeUnder_of_empty {s : State} (hempty : s.regs.txV = false) (c : Config) :
    RunsAlikeUnder execSend s c := by
  have other := execSend_cases (s.withConfig c)
  rcases execSend_cases s with ⟨hw, h⟩ | ⟨hw, hl, h⟩ | ⟨hw, hl, -, h⟩ | ⟨-, -, hheld, -⟩ | ⟨-, -, hheld, -⟩
  · exact runsAlikeUnder_of_raise h (by simpa [hw] using other)
  · exact runsAlikeUnder_of_raise h (by simpa [hw, hl] using other)
  · exact runsAlikeUnder_of_raise h (by simpa [hw, hl, hempty] using other)
  all_goals exact absurd (hempty.symm.trans hheld) Bool.false_ne_true

/-- ABORT with nothing held raises under every configuration. -/
theorem execAbort_runsAlikeUnder_of_empty {s : State} (hempty : s.regs.txV = false) (c : Config) :
    RunsAlikeUnder execAbort s c :=
  runsAlikeUnder_of_raise (if_pos hempty) (if_pos hempty)

end Sys2Proof.Machine

namespace Sys2Proof.Proofs

open Sys2Proof.Machine

/-- Settles O17: the built frame is acceptable under its own configuration, and its fields are the operands. -/
theorem decodeReturnsWhatEncodeBuilt : Obligations.DecodeReturnsWhatEncodeBuilt := by
  intro s s' origin ecc code payload now hfits hne hmem hconfig
  have hpayload : payload.length ≤ 255 := by omega
  have hlength := encodedFrame_length s.config.key origin ecc code payload now
  have hbuffer := filledBuffer_encodedFrame s.config.key origin ecc code now hfits
  have parses := (congrArg (parse · _) hconfig).trans
    (parse_encodedFrame origin ecc code now s.config hpayload)
  have hlen := encodedFrame_lengthByte s.config.key origin ecc code now hpayload
  refine ⟨_, _, _, exec_encode_of_accepted ecc code now hfits (registered_of_mem hne hmem), ?held, hlength,
    rfl, exec_decode_of_parse_ok parses, rfl, rfl, rfl, hlen, rfl, rfl, ?payload, rfl, rfl⟩
  case held => exact ((congrArg (List.take _) hbuffer).trans (List.take_left' hlength)).symm
  case payload =>
    exact (congrArg (List.take _) (filledBuffer_eq hpayload)).trans List.take_left

/-- Settles O13: each clause is the check of the parse that fails first, and its error is raised. -/
theorem failedParseLeavesNoTrace : Obligations.FailedParseLeavesNoTrace :=
  fun _ _ _ hi =>
    ⟨fun hshort => exec_of_parse_error hi (parse_of_short hshort),
      fun hheader hflag => exec_of_parse_error hi (parse_of_illegalFlag hheader hflag),
      fun hheader hflag hshort => exec_of_parse_error hi (parse_of_shortPayload hheader hflag hshort),
      fun hlength hflag hverify hmac =>
        exec_of_parse_error hi (parse_of_wrongTag hlength hflag hverify hmac)⟩

/-- Settles O14: what parses is exactly what is acceptable, so DECODE commits the fields of the one and raises
on the other. -/
theorem decodeCommitsTheFrame : Obligations.DecodeCommitsTheFrame := by
  intro s b payload macOk
  constructor
  · intro hacceptable
    have parses := parse_of_acceptable hacceptable
    have hmac : (frameFields s.config.key b).macOk = macOk := by
      rw [Bool.eq_iff_iff, frameFields_macOk_iff, decide_eq_true_iff]
    have hheader : (frameFields s.config.key b).header = _ := take_header hacceptable.1
    refine ⟨_, commitFrame_rxPayload_toList parses s.regs, ?_⟩
    rw [exec_decode_of_parse_ok parses, frameResponse, hheader, ← hmac]
    rfl
  · intro hrefused
    rcases execDecode_cases b s with ⟨e, -, h⟩ | ⟨f, parses, -⟩
    · exact ⟨e.code, Err.code_ne_okCode e, h⟩
    · exact absurd (acceptable_of_parse_ok parses) hrefused

/-- Settles O15: the last of the parse's five cases, read both ways. -/
theorem parseSucceedsExactlyOnAcceptable : Obligations.ParseSucceedsExactlyOnAcceptable :=
  fun _ _ => ⟨fun ⟨_, parses⟩ => acceptable_of_parse_ok parses, fun h => ⟨_, parse_of_acceptable h⟩⟩

/-- Settles O16: DECODE is a function of the parse, which sees the frame alone. -/
theorem trailingBytesAreIgnored : Obligations.TrailingBytesAreIgnored := by
  intro s b extra h
  have parses := parse_of_acceptable h
  rw [exec_decode_of_parse_ok parses, exec_decode_of_parse_ok ((parse_append h extra).trans parses)]

/-- Settles O51: none of these operations reads `PAYLOAD_MAX`; SEND and ABORT read it only to empty the buffer,
which they do only when it holds a frame. -/
theorem payloadCeilingReachesOnlyTheTransmitBuffer :
    Obligations.PayloadCeilingReachesOnlyTheTransmitBuffer := by
  intro i s m hi
  have alike : RunsAlikeUnder (exec i) s { s.config with payloadMax := m } := by
    rcases hi with ⟨b, rfl | rfl | rfl⟩ | rfl | ⟨addr, rfl⟩ | ⟨rfl | rfl, hempty⟩
    · exact execDecode_runsAlikeUnder b rfl rfl
    · exact execReceive_runsAlikeUnder b rfl rfl rfl rfl rfl
    · exact execTag_runsAlikeUnder b rfl
    · exact execTick_runsAlikeUnder rfl
    · exact execRead_runsAlikeUnder addr s _
    · exact execSend_runsAlikeUnder_of_empty hempty _
    · exact execAbort_runsAlikeUnder_of_empty hempty _
  obtain ⟨t, ht, hconfig, ht'⟩ := alike
  refine ⟨t, ht, ?_⟩
  rw [hconfig]
  exact ht'

end Sys2Proof.Proofs
end

section
/-!
PROOF. The statements of spec/42_tag_generator.md: the padding (R166), the message schedule (R170), the sizes of
hashes and tags (R161, R165, R172), and TAG (R160).
-/

namespace Sys2Proof.Machine

/-! ### The padding of R166 -/

/-- The padding's zeros fill a block. -/
theorem shaPadZeros_fills (len : Nat) : (len + 1 + shaPadZeros len + 8) % 64 = 0 := by
  unfold shaPadZeros
  omega

theorem shaPadZeros_lt (len : Nat) : shaPadZeros len < 64 := Nat.mod_lt _ (by decide)

/-- Two numbers of zeros that fill a block differ by a multiple of 64, and `shaPadZeros` is below 64. -/
theorem shaPadZeros_le {len z : Nat} (hz : (len + 1 + z + 8) % 64 = 0) : shaPadZeros len ≤ z := by
  have hfills := shaPadZeros_fills len
  have hlt := shaPadZeros_lt len
  omega

/-- A padded message is the blocks that the message, the marker and the bit length need. -/
theorem shaPad_length (x : List Byte) : (shaPad x).length = 64 * ((x.length + 8) / 64 + 1) := by
  have hsum : (shaPad x).length = x.length + 1 + shaPadZeros x.length + 8 := by
    simp only [shaPad, List.length_append, List.length_singleton, zeros_length, bytes64_length]
  have hfills := shaPadZeros_fills x.length
  have hlt := shaPadZeros_lt x.length
  omega

/-! ### The sizes of hashes and of the key block -/

@[simp] theorem sha256_length (x : List Byte) : (sha256 x).length = 32 := by
  unfold sha256
  exact shaState_bytes_length _

/-- The key of R3 fills one block (R164). -/
@[simp] theorem hmacKeyBlock_bytes32_length (key : Word) : (hmacKeyBlock (bytes32 key)).length = 64 := by
  simp [hmacKeyBlock]

/-! ### The words of a block -/

theorem shaWords_length : ∀ {n : Nat} {b : List Byte}, b.length = 4 * n → (shaWords b).length = n
  | 0, [], _ => rfl
  | n + 1, _ :: _ :: _ :: _ :: rest, h => by
    have ih := shaWords_length (n := n) (b := rest) (by simp only [List.length_cons] at h; omega)
    simp only [shaWords, List.length_cons, ih]

/-- Word `t` of a block is its four bytes from `4 * t`, big-endian. -/
theorem shaWords_getD : ∀ {t : Nat} {b : List Byte}, 4 * t + 4 ≤ b.length →
    (shaWords b).getD t 0 = be32At b (4 * t)
  | 0, _ :: _ :: _ :: _ :: _, _ => rfl
  | t + 1, _ :: _ :: _ :: _ :: rest, h =>
    shaWords_getD (t := t) (b := rest) (by simp only [List.length_cons] at h; omega)

/-! ### The extension of R170, over the words in order

`shaExtend` holds the words latest first; the lemmas read them in order, as R170 does. -/

/-- The word that `shaExtend` puts before the words so far, the latest of them first. -/
def shaNextWord (latestFirst : List Word) : Word :=
  shaSmallSigma1 (latestFirst.getD 1 0) + latestFirst.getD 6 0 + shaSmallSigma0 (latestFirst.getD 14 0) +
    latestFirst.getD 15 0

theorem shaExtend_succ (n : Nat) (w : List Word) :
    shaExtend (n + 1) w = shaExtend n (shaNextWord w :: w) := rfl

theorem shaExtend_length : ∀ (n : Nat) (w : List Word), (shaExtend n w).length = w.length + n
  | 0, _ => rfl
  | n + 1, w => by
    rw [shaExtend_succ, shaExtend_length n, List.length_cons]
    omega

/-- The words so far stay where they are. -/
theorem shaExtend_keeps_earlier : ∀ (n : Nat) (w : List Word), w.reverse <+: (shaExtend n w).reverse
  | 0, _ => ⟨[], List.append_nil _⟩
  | n + 1, w => by
    have hnext : w.reverse <+: (shaNextWord w :: w).reverse :=
      ⟨[shaNextWord w], List.reverse_cons.symm⟩
    exact hnext.trans (shaExtend_keeps_earlier n _)

/-- The recurrence of R170 holds at every word of a list after its first 16. -/
def FollowsSchedule (w : List Word) : Prop :=
  ∀ t, 16 ≤ t → t < w.length →
    w.getD t 0 = shaSmallSigma1 (w.getD (t - 2) 0) + w.getD (t - 7) 0 + shaSmallSigma0 (w.getD (t - 15) 0) +
      w.getD (t - 16) 0

/-- An entry of the words latest first is an entry of the words in order. -/
theorem getD_eq_getD_reverse {w : List Word} {i : Nat} (hi : i < w.length) :
    w.getD i 0 = w.reverse.getD (w.length - 1 - i) 0 := by
  have h := List.getD_reverse (l := w.reverse) i (by simpa using hi)
  rw [List.reverse_reverse, List.length_reverse] at h
  exact congrFun h 0

/-- One more word: the recurrence at the words before reads none of it, and at itself is its definition. -/
theorem FollowsSchedule.next {w : List Word} (hw : FollowsSchedule w.reverse) (hlen : 16 ≤ w.length) :
    FollowsSchedule (shaNextWord w :: w).reverse := by
  intro t hlow hhigh
  simp only [List.length_reverse, List.length_cons] at hhigh
  rw [List.reverse_cons]
  have earlier : ∀ i, i < w.length → (w.reverse ++ [shaNextWord w]).getD i 0 = w.reverse.getD i 0 :=
    fun i hi => List.getD_append _ _ _ _ (by simpa using hi)
  rw [earlier (t - 2) (by omega), earlier (t - 7) (by omega), earlier (t - 15) (by omega),
    earlier (t - 16) (by omega)]
  rcases Nat.lt_or_eq_of_le (Nat.lt_succ_iff.mp hhigh) with hbefore | rfl
  · rw [earlier t hbefore]
    exact hw t hlow (by simpa using hbefore)
  · rw [List.getD_append_right _ _ _ _ (by simp), List.length_reverse, Nat.sub_self, List.getD_cons_zero,
      shaNextWord, getD_eq_getD_reverse (i := 1) (by omega), getD_eq_getD_reverse (i := 6) (by omega),
      getD_eq_getD_reverse (i := 14) (by omega), getD_eq_getD_reverse (i := 15) (by omega)]
    simp only [Nat.sub_sub, Nat.reduceAdd]

theorem followsSchedule_shaExtend : ∀ (n : Nat) {w : List Word}, 16 ≤ w.length → FollowsSchedule w.reverse →
    FollowsSchedule (shaExtend n w).reverse
  | 0, _, _, hw => hw
  | n + 1, _, hlen, hw => followsSchedule_shaExtend n (Nat.le_succ_of_le hlen) (hw.next hlen)

/-! ### The schedule of a block -/

theorem shaSchedule_length {block : List Byte} (h : block.length = 64) : (shaSchedule block).length = 64 := by
  rw [shaSchedule, List.length_reverse, shaExtend_length, List.length_reverse, shaWords_length (n := 16) h]

/-- The first 16 words of the schedule are the block's (R170). -/
theorem shaSchedule_getD_of_lt {block : List Byte} (h : block.length = 64) {t : Nat} (ht : t < 16) :
    (shaSchedule block).getD t 0 = be32At block (4 * t) := by
  have hkept : shaWords block <+: shaSchedule block := by
    have kept := shaExtend_keeps_earlier 48 (shaWords block).reverse
    rwa [List.reverse_reverse] at kept
  have hwords : t < (shaWords block).length := by rwa [shaWords_length (n := 16) h]
  obtain ⟨later, hschedule⟩ := hkept
  rw [← hschedule, List.getD_append _ _ _ _ hwords, shaWords_getD (by omega)]

theorem followsSchedule_shaSchedule {block : List Byte} (h : block.length = 64) :
    FollowsSchedule (shaSchedule block) := by
  have hwords : (shaWords block).length = 16 := shaWords_length h
  refine followsSchedule_shaExtend 48 (by simp [hwords]) fun t hlow hhigh => ?_
  rw [List.reverse_reverse, hwords] at hhigh
  omega

end Sys2Proof.Machine

namespace Sys2Proof.Proofs

open Sys2Proof.Machine

/-- Settles O20: the number of zeros is `shaPadZeros`. -/
theorem paddingFillsBlocksWithLeastZeros : Obligations.PaddingFillsBlocksWithLeastZeros := by
  intro x
  refine ⟨shaPadZeros x.length, rfl, shaPadZeros_fills _, fun _ => shaPadZeros_le, ?_⟩
  rw [shaPad_length, Nat.mul_mod_right]

/-- Settles O22: the extension keeps the block's words and follows the recurrence after them. -/
theorem messageScheduleRecurrence : Obligations.MessageScheduleRecurrence := by
  intro block h
  refine ⟨shaSchedule_length h, fun t ht => shaSchedule_getD_of_lt h ht, fun t hlow hhigh => ?_⟩
  exact followsSchedule_shaSchedule h t hlow (by rwa [shaSchedule_length h])

/-- Settles O18: TAG answers `tag`, which is the truncated HMAC by definition (R161). -/
theorem tagAnswersTheTruncatedHmac : Obligations.TagAnswersTheTruncatedHmac :=
  fun s b => execTag_eq b s

/-- Settles O19: a hash is eight words of four bytes, and a tag is the first four of a hash's 32. -/
theorem tagsHaveFourBytes : Obligations.TagsHaveFourBytes := ⟨sha256_length, tag_length⟩

/-- Settles O21: the inner message is a block and `m`, the outer one a block and a hash. -/
theorem hmacBlockCounts : Obligations.HmacBlockCounts := by
  intro key m
  constructor
  · rw [shaPad_length, List.length_append, List.length_map, hmacKeyBlock_bytes32_length]
  · rw [shaPad_length, List.length_append, List.length_map, hmacKeyBlock_bytes32_length, sha256_length]

end Sys2Proof.Proofs
end

section
/-!
PROOF. The statements of spec/43_command_fsm.md: SEND (R202 to R206), RECEIVE with the reply classifier (R211 to
R217), TICK (R220 to R225), ABORT (R230), READ (R240, R241) and the command states of the source (R200).
-/

namespace Sys2Proof.Machine

/-! ### The reply classifier (R212 to R217)

What it makes of registers that hold a reply, one lemma per kind of reply; the first is
`classify_of_matchingAck`. -/

section
variable {c : Config} {r : Regs}

/-- An ACK whose payload is not `[LASTCODE]` (R214). -/
theorem classify_of_otherAck (hcode : r.rxCode = c.ackCode) (hmismatch : ackMatches r = false) :
    r.classify c = { r with
      wait := false, status := .invalidAck, diag := if r.rxLen = 1 then .none else .malformedAck } := by
  rcases classify_cases c r with ⟨-, h⟩ | ⟨hother, -⟩ | ⟨hother, -⟩ | ⟨hother, -⟩
  · exact h.trans (if_neg (Bool.eq_false_iff.mp hmismatch))
  all_goals exact absurd hcode hother

/-- Every NACK goes to its detector, unless its code is the ACK's too (R215, R219). -/
theorem classify_eq_classifyNack (hcode : r.rxCode = c.nackCode) (hack : r.rxCode ≠ c.ackCode) :
    r.classify c = Regs.classifyNack { r with wait := false } := by
  rcases classify_cases c r with ⟨h, -⟩ | ⟨-, -, h⟩ | ⟨-, hnack, -⟩ | ⟨-, hnack, -⟩
  · exact absurd h hack
  · exact h
  all_goals exact absurd hcode hnack

/-- A NACK of two bytes (R215). -/
theorem classify_of_nack (hcode : r.rxCode = c.nackCode) (hack : r.rxCode ≠ c.ackCode) (hlen : r.rxLen = 2) :
    r.classify c = { r with
      wait := false, status := .nacked, nackReq := replyByte r 0, nackErr := replyByte r 1
      nackV := true, diag := .none } :=
  (classify_eq_classifyNack hcode hack).trans (if_pos hlen)

/-- A NACK of another length (R215). -/
theorem classify_of_malformedNack (hcode : r.rxCode = c.nackCode) (hack : r.rxCode ≠ c.ackCode)
    (hlen : r.rxLen ≠ 2) :
    r.classify c = { r with
      wait := false, status := .nacked, nackReq := 0, nackErr := 0, nackV := false
      diag := .malformedNack } :=
  (classify_eq_classifyNack hcode hack).trans (if_neg hlen)

/-- Every ping reply goes to its detector, unless its code is the ACK's or the NACK's too (R216, R219). -/
theorem classify_eq_classifyPing (hcode : r.rxCode = c.pingCode) (hack : r.rxCode ≠ c.ackCode)
    (hnack : r.rxCode ≠ c.nackCode) : r.classify c = Regs.classifyPing { r with wait := false } := by
  rcases classify_cases c r with ⟨h, -⟩ | ⟨-, h, -⟩ | ⟨-, -, -, h⟩ | ⟨-, -, hping, -⟩
  · exact absurd h hack
  · exact absurd h hnack
  · exact h
  · exact absurd hcode hping

/-- A ping reply of twelve bytes (R216). -/
theorem classify_of_ping (hcode : r.rxCode = c.pingCode) (hack : r.rxCode ≠ c.ackCode)
    (hnack : r.rxCode ≠ c.nackCode) (hlen : r.rxLen = 12) :
    r.classify c = { r with
      wait := false, status := .acked, ackSrc := true, pingRssi := replyWord r 0
      pingSnr := replyWord r 4, pingFshift := replyWord r 8, pingV := true, diag := .none } :=
  (classify_eq_classifyPing hcode hack hnack).trans (if_pos hlen)

/-- A ping reply of another length (R216). -/
theorem classify_of_malformedPing (hcode : r.rxCode = c.pingCode) (hack : r.rxCode ≠ c.ackCode)
    (hnack : r.rxCode ≠ c.nackCode) (hlen : r.rxLen ≠ 12) :
    r.classify c = { r with
      wait := false, status := .acked, ackSrc := true, pingRssi := 0, pingSnr := 0, pingFshift := 0
      pingV := false, diag := .malformedPing } :=
  (classify_eq_classifyPing hcode hack hnack).trans (if_neg hlen)

/-- A reply of none of the three codes (R217). -/
theorem classify_of_other (hack : r.rxCode ≠ c.ackCode) (hnack : r.rxCode ≠ c.nackCode)
    (hping : r.rxCode ≠ c.pingCode) :
    r.classify c = { r with
      wait := false, status := .unexpectedReply, unexpCode := r.rxCode, diag := .none } := by
  rcases classify_cases c r with ⟨h, -⟩ | ⟨-, h, -⟩ | ⟨-, -, h, -⟩ | ⟨-, -, -, h⟩
  · exact absurd h hack
  · exact absurd h hnack
  · exact absurd h hping
  · exact h

/-- The ACK match over a committed candidate: its payload is the one byte `LASTCODE` (R212). -/
theorem ackMatches_commitFrame_iff {b : List Byte} {f : Frame} (parses : parse c b = .ok f) :
    ackMatches (r.commitFrame f) = true ↔ byteAt b 3 = 1 ∧ byteAt b 12 = r.lastCode := by
  refine ⟨fun hmatch => ?_, fun ⟨hlen, hcode⟩ => ackMatches_commitFrame parses hlen hcode⟩
  obtain ⟨hrxLen, hbyte⟩ : f.len = 1 ∧ replyByte (r.commitFrame f) 0 = r.lastCode := by
    simpa [ackMatches, replyByte] using hmatch
  have hlen : byteAt b 3 = 1 := by
    rw [(parse_ok parses).1] at hrxLen
    exact hrxLen
  rw [replyByte_commitFrame parses r (by simp [hlen])] at hbyte
  exact ⟨hlen, hbyte⟩

/-- The classifier's words are the candidate's, big-endian from offset 12 on (R86). -/
theorem replyWord_commitFrame {b : List Byte} {f : Frame} (parses : parse c b = .ok f) {off : Nat}
    (hoff : off + 4 ≤ (byteAt b 3).toNat) :
    replyWord (r.commitFrame f) off = be32At b (12 + off) := by
  have hbyte : ∀ i, i < (byteAt b 3).toNat →
      byteAt (r.commitFrame f).rxPayload.toList i = byteAt b (12 + i) :=
    fun i hi => replyByte_commitFrame parses r hi
  simp only [replyWord, be32At, Nat.add_assoc]
  rw [hbyte off (by omega), hbyte (off + 1) (by omega), hbyte (off + 2) (by omega),
    hbyte (off + 3) (by omega)]

end

/-- A resolution is ACKED, INVALID_ACK, NACKED or UNEXPECTED_REPLY. -/
theorem classify_status_cases (c : Config) (r : Regs) :
    (r.classify c).status = .acked ∨ (r.classify c).status = .invalidAck ∨
      (r.classify c).status = .nacked ∨ (r.classify c).status = .unexpectedReply := by
  rcases classify_cases c r with ⟨-, h⟩ | ⟨-, -, h⟩ | ⟨-, -, -, h⟩ | ⟨-, -, -, h⟩ <;> rw [h]
  · unfold Regs.classifyAck
    split
    · exact .inl rfl
    · exact .inr (.inl rfl)
  · unfold Regs.classifyNack
    split <;> exact .inr (.inr (.inl rfl))
  · unfold Regs.classifyPing
    split <;> exact .inl rfl
  · exact .inr (.inr (.inr rfl))

@[simp] theorem classify_wait (c : Config) (r : Regs) : (r.classify c).wait = false := by
  rw [classify_frame]

@[simp] theorem classify_txV (c : Config) (r : Regs) : (r.classify c).txV = r.txV := by
  rw [classify_frame]

/-- RECEIVE of an acceptable candidate while a command waits: DECODE's registers, classified, with the outcome
behind DECODE's data (R210, R213). -/
theorem exec_receive_of_classified {s : State} {b : List Byte} {resolved : Regs}
    (hacceptable : Acceptable s.config b) (hwait : s.regs.wait = true)
    (hclassified : (s.regs.commitFrame (frameFields s.config.key b)).classify s.config = resolved) :
    exec (.receive b) s = .next (s.complete resolved
      (frameResponse (frameFields s.config.key b) ++ [flagByte true, resolved.status.byte]) [.evt]) := by
  rw [exec_receive_of_waiting (parse_of_acceptable hacceptable) hwait, hclassified]

/-- DECODE of an acceptable candidate (R137, R138). -/
theorem exec_decode_of_acceptable {s : State} {b : List Byte} (h : Acceptable s.config b) :
    exec (.decode b) s = .next (s.complete (s.regs.commitFrame (frameFields s.config.key b))
      (frameResponse (frameFields s.config.key b)) []) :=
  exec_decode_of_parse_ok (parse_of_acceptable h)

/-- `sint8` of R10 is the two's complement value of the library. -/
theorem sint8_eq_toInt (b : Byte) : sint8 b = b.toInt := by
  rw [sint8, BitVec.toInt_eq_toNat_cond]
  split <;> split <;> omega

/-! ### TICK (R220 to R225) -/

section
variable {c : Config} {r : Regs}

/-- A TICK that leaves `ELAPSED` at or below `TIMEOUT_S` only counts (R220). -/
theorem tick_of_within (hwait : r.wait = true) (hwithin : (r.elapsed + 1).toNat ≤ c.timeoutS.val) :
    r.tick c = { r with elapsed := r.elapsed + 1 } := by
  rcases tick_cases c r with ⟨hidle, -⟩ | ⟨-, -, h⟩ | ⟨-, hover, -⟩
  · exact absurd (hidle.symm.trans hwait) Bool.false_ne_true
  · exact h
  · omega

/-- A TICK that takes `ELAPSED` above `TIMEOUT_S`, from whatever value (R221). -/
theorem tick_of_over (hwait : r.wait = true) (hover : c.timeoutS.val < (r.elapsed + 1).toNat) :
    r.tick c = { r with elapsed := r.elapsed + 1, status := .noReply, wait := false } := by
  rcases tick_cases c r with ⟨hidle, -⟩ | ⟨-, hwithin, -⟩ | ⟨-, -, h⟩
  · exact absurd (hidle.symm.trans hwait) Bool.false_ne_true
  · omega
  · exact h

@[simp] theorem tick_txV (c : Config) (r : Regs) : (r.tick c).txV = r.txV := by
  rw [tick_frame]

/-- While a command waits, and at its timeout, the number of TICKs fits `ELAPSED` (R27). -/
theorem elapsed_ofNat_toNat {k : Nat} (hk : k ≤ c.timeoutS.val + 1) : (BitVec.ofNat 8 k).toNat = k := by
  have hlt := c.timeoutS.isLt
  exact Nat.mod_eq_of_lt (by omega)

theorem elapsed_ofNat_succ (k : Nat) : BitVec.ofNat 8 k + 1 = BitVec.ofNat 8 (k + 1) :=
  (BitVec.ofNat_add k 1).symm

/-- Up to `TIMEOUT_S` TICKs after a command started to wait, they have only counted. -/
theorem tick_iterate_of_le (hwait : r.wait = true) (hstart : r.elapsed = 0) :
    ∀ k, k ≤ c.timeoutS.val → (Regs.tick c)^[k] r = { r with elapsed := BitVec.ofNat 8 k }
  | 0, _ => by
    show r = { r with elapsed := 0 }
    rw [← hstart]
  | k + 1, hk => by
    have hwithin : (BitVec.ofNat 8 k + 1).toNat ≤ c.timeoutS.val := by
      rw [elapsed_ofNat_succ, elapsed_ofNat_toNat (c := c) (by omega)]
      exact hk
    have hnext := tick_of_within (r := { r with elapsed := BitVec.ofNat 8 k }) hwait hwithin
    rw [Function.iterate_succ_apply', tick_iterate_of_le hwait hstart k (by omega), hnext,
      elapsed_ofNat_succ]

/-- The next TICK ends the wait, and no later one writes anything. -/
theorem tick_iterate_of_lt (hwait : r.wait = true) (hstart : r.elapsed = 0) {k : Nat}
    (hk : c.timeoutS.val < k) :
    (Regs.tick c)^[k] r = { r with
      elapsed := BitVec.ofNat 8 (c.timeoutS.val + 1), status := .noReply, wait := false } := by
  obtain ⟨later, rfl⟩ := Nat.exists_eq_add_of_le' hk
  have hlast := tick_of_timeout (r := { r with elapsed := BitVec.ofNat 8 c.timeoutS.val }) hwait
    (elapsed_ofNat_toNat (Nat.le_succ _))
  rw [Function.iterate_add_apply, Function.iterate_succ_apply', tick_iterate_of_le hwait hstart _ le_rfl,
    hlast, elapsed_ofNat_succ]
  exact Function.iterate_fixed (tick_of_idle c rfl) later

end

/-- A step that takes a TICK. -/
theorem step_tick {s : State} {linkUp txAccept : Bool} {rest : List HostInput}
    (hqueue : s.hostQueue = .op [0x05] linkUp txAccept :: rest) :
    ∃ u, step s = .next u ∧ u.hostQueue = rest ∧ u.config = s.config ∧ u.regs = s.regs.tick s.config :=
  ⟨_, (step_eq_exec hqueue (i := .tick) rfl).trans (execTick_eq _), rfl, rfl, rfl⟩

/-- A run over TICKs alone iterates the TICK on the registers. -/
theorem run_ticks (linkUp txAccept : Bool) (k : Nat) {s : State}
    (hqueue : s.hostQueue = List.replicate k (.op [0x05] linkUp txAccept)) :
    ∃ t, Sys2Proof.core.run k s = .next t ∧ t.regs = (Regs.tick s.config)^[k] s.regs := by
  induction k generalizing s with
  | zero => exact ⟨s, rfl, rfl⟩
  | succ k ih =>
    obtain ⟨u, hu, huqueue, huconfig, huregs⟩ := step_tick hqueue
    obtain ⟨t, ht, hregs⟩ := ih huqueue
    refine ⟨t, (run_succ_of_step Sys2Proof.core hu k).trans ht, ?_⟩
    rw [hregs, huconfig, huregs, Function.iterate_succ_apply]

/-! ### SEND, ABORT and READ, case by case

`exec_send_of_ready` is the SEND that transmits. -/

section
variable {s : State}

theorem exec_send_of_waiting (hwait : s.regs.wait = true) : exec .send s = .next (s.raise .busy) := by
  show execSend s = _
  simpa [hwait] using execSend_cases s

theorem exec_send_of_linkDown (hwait : s.regs.wait = false) (hlink : s.linkUp = false) :
    exec .send s = .next (s.raise .notConnected) := by
  show execSend s = _
  simpa [hwait, hlink] using execSend_cases s

theorem exec_send_of_empty (hwait : s.regs.wait = false) (hlink : s.linkUp = true)
    (hempty : s.regs.txV = false) : exec .send s = .next (s.raise .queueEmpty) := by
  show execSend s = _
  simpa [hwait, hlink, hempty] using execSend_cases s

theorem exec_send_of_notAccepted (hwait : s.regs.wait = false) (hlink : s.linkUp = true)
    (hheld : s.regs.txV = true) (haccept : s.txAccept = false) :
    exec .send s = .next (s.raise .transmitFailed) := by
  show execSend s = _
  simpa [hwait, hlink, hheld, haccept] using execSend_cases s

theorem exec_abort_of_held (hheld : s.regs.txV = true) :
    exec .abort s = .next (s.complete (s.regs.clearTx s.config) [] []) := by
  show execAbort s = _
  simpa [hheld] using execAbort_cases s

theorem exec_abort_of_empty (hempty : s.regs.txV = false) :
    exec .abort s = .next (s.raise .queueEmpty) := by
  show execAbort s = _
  simpa [hempty] using execAbort_cases s

theorem exec_read_of_mapped {addr : Half} {v : Word} (hmapped : readMap s.regs addr = some v) :
    exec (.read addr) s = .next (s.complete s.regs (bytes32 v) []) := by
  show execRead addr s = _
  simpa [hmapped] using execRead_cases addr s

theorem exec_read_of_unmapped {addr : Half} (hunmapped : readMap s.regs addr = none) :
    exec (.read addr) s = .next (s.raise .illegalOp) := by
  show execRead addr s = _
  simpa [hunmapped] using execRead_cases addr s

end

/-! ### The command states of the source (R200) -/

@[simp] theorem Regs.isIn_queued (r : Regs) : r.isIn .queued = r.txV := rfl

/-- In safe registers a command is sent exactly while it waits (R25). -/
theorem Regs.Inv.isIn_sent {c : Config} {r : Regs} (h : r.Inv c) : r.isIn .sent = r.wait := by
  cases hwait : r.wait with
  | false => simp [Regs.isIn, hwait]
  | true => simp [Regs.isIn, hwait, h.wait_iff.mp hwait]

/-- All an operation can do to `TXV`: ENCODE sets it, SEND and ABORT clear it. -/
theorem Effect.txV_cases {i : Instr} {s t : State} (effect : Effect s i t) :
    t.regs.txV = s.regs.txV ∨
    (∃ origin ecc code payload now, i = .encode origin ecc code payload now ∧ t.regs.txV = true) ∨
    ((i = .send ∨ i = .abort) ∧ t.regs.txV = false) := by
  cases effect with
  | raised | answered | parsed | received => exact .inl rfl
  | classified => exact .inl (classify_txV _ _)
  | ticked => exact .inl (tick_txV _ _)
  | held origin ecc code payload now => exact .inr (.inl ⟨origin, ecc, code, payload, now, rfl, rfl⟩)
  | started => exact .inr (.inr ⟨.inl rfl, rfl⟩)
  | cleared => exact .inr (.inr ⟨.inr rfl, rfl⟩)

/-- All an operation can do to `WAIT`: SEND of a held frame sets it; a reply and the timeout clear it, each with
its own outcomes. -/
theorem Effect.wait_cases {i : Instr} {s t : State} (effect : Effect s i t) :
    t.regs.wait = s.regs.wait ∨
    (i = .send ∧ s.regs.txV = true ∧ t.regs.txV = false ∧ t.regs.wait = true) ∨
    ((∃ b, i = .receive b) ∧ t.regs.wait = false ∧
      (t.regs.status = .acked ∨ t.regs.status = .invalidAck ∨ t.regs.status = .nacked ∨
        t.regs.status = .unexpectedReply)) ∨
    (i = .tick ∧ t.regs.wait = false ∧ t.regs.status = .noReply) := by
  cases effect with
  | raised | answered | held | parsed | received | cleared => exact .inl rfl
  | started _ _ _ holds => exact .inr (.inl ⟨rfl, holds, rfl, rfl⟩)
  | classified b =>
    exact .inr (.inr (.inl ⟨⟨b, rfl⟩, classify_wait _ _, classify_status_cases _ _⟩))
  | ticked =>
    rw [State.complete_regs]
    rcases tick_cases s.config s.regs with ⟨-, h⟩ | ⟨-, -, h⟩ | ⟨-, -, h⟩ <;> rw [h]
    · exact .inl rfl
    · exact .inl rfl
    · exact .inr (.inr (.inr ⟨rfl, rfl, rfl⟩))

end Sys2Proof.Machine

namespace Sys2Proof.Proofs

open Sys2Proof.Machine

/-- Settles O26: both operations commit the same frame, and with `WAIT = 0` RECEIVE does no more. -/
theorem receiveWithoutCommandOnlyReceives : Obligations.ReceiveWithoutCommandOnlyReceives :=
  fun _ _ hacceptable hwait => ⟨_, _, exec_decode_of_acceptable hacceptable, rfl,
    exec_receive_of_idle (parse_of_acceptable hacceptable) hwait⟩

/-- Settles O27: the candidate's one payload byte matches once it is committed. -/
theorem matchingAckResolvesTheCommand : Obligations.MatchingAckResolvesTheCommand := by
  intro s b hacceptable hwait hcode hlen hack
  have hmatch := ackMatches_commitFrame (parse_of_acceptable hacceptable) hlen hack
  exact ⟨_, _, exec_decode_of_acceptable hacceptable, rfl,
    exec_receive_of_classified hacceptable hwait (classify_of_matchingAck hcode hmatch)⟩

/-- Settles O28: the match fails on such a candidate, since it is an equivalence. -/
theorem otherAckIsInvalid : Obligations.OtherAckIsInvalid := by
  intro s b hacceptable hwait hcode hother
  have hmismatch : ackMatches (s.regs.commitFrame (frameFields s.config.key b)) = false := by
    rw [Bool.eq_false_iff, Ne, ackMatches_commitFrame_iff (parse_of_acceptable hacceptable),
      not_and_or]
    exact hother
  refine ⟨_, _, exec_decode_of_acceptable hacceptable, rfl, ?_⟩
  rw [ite_not]
  exact exec_receive_of_classified hacceptable hwait (classify_of_otherAck hcode hmismatch)

/-- Settles O29: by the length; the two payload bytes are the candidate's bytes 12 and 13. -/
theorem nackResolvesTheCommand : Obligations.NackResolvesTheCommand := by
  intro s b hacceptable hwait hcode hack
  have parses := parse_of_acceptable hacceptable
  refine ⟨_, _, _, exec_decode_of_acceptable hacceptable, rfl, exec_receive_of_waiting parses hwait,
    fun hlen => ?_, fun hlen => ?_⟩
  · have hnack := classify_of_nack (r := s.regs.commitFrame (frameFields s.config.key b)) hcode hack hlen
    have hreq := replyByte_commitFrame parses s.regs (i := 0) (by simp [hlen])
    have herr := replyByte_commitFrame parses s.regs (i := 1) (by simp [hlen])
    rw [hnack, hreq, herr]
    exact ⟨rfl, sint8_eq_toInt _⟩
  · have hnack :=
      classify_of_malformedNack (r := s.regs.commitFrame (frameFields s.config.key b)) hcode hack hlen
    rw [hnack]
    rfl

/-- Settles O30: by the length; the three words are the candidate's at offsets 12, 16 and 20. -/
theorem pingReplyResolvesTheCommand : Obligations.PingReplyResolvesTheCommand := by
  intro s b hacceptable hwait hcode hack hnack
  have parses := parse_of_acceptable hacceptable
  refine ⟨_, _, _, exec_decode_of_acceptable hacceptable, rfl, exec_receive_of_waiting parses hwait,
    fun hlen => ?_, fun hlen => ?_⟩
  · have hping :=
      classify_of_ping (r := s.regs.commitFrame (frameFields s.config.key b)) hcode hack hnack hlen
    have hword : ∀ off ≤ 8, replyWord (s.regs.commitFrame (frameFields s.config.key b)) off =
        be32At b (12 + off) := fun off hoff => replyWord_commitFrame parses (by simp [hlen]; omega)
    rw [hping, hword 0 (by omega), hword 4 (by omega), hword 8 le_rfl]
    rfl
  · have hping :=
      classify_of_malformedPing (r := s.regs.commitFrame (frameFields s.config.key b)) hcode hack hnack hlen
    rw [hping]
    rfl

/-- Settles O31: the candidate's code is byte 2. -/
theorem otherReplyIsUnexpected : Obligations.OtherReplyIsUnexpected :=
  fun _ _ hacceptable hwait hack hnack hping => ⟨_, _, exec_decode_of_acceptable hacceptable, rfl,
    exec_receive_of_classified hacceptable hwait (classify_of_other hack hnack hping)⟩

/-- Settles O34: the run iterates the TICK, which counts to `TIMEOUT_S`, times out, and then rests. -/
theorem timeoutFiresOnItsTick : Obligations.TimeoutFiresOnItsTick := by
  intro k s linkUp txAccept hwait _ hstart hqueue
  obtain ⟨t, ht, hregs⟩ := run_ticks linkUp txAccept k hqueue
  exact ⟨t, ht, fun hk => hregs.trans (tick_iterate_of_le hwait hstart k hk),
    fun hk => hregs.trans (tick_iterate_of_lt hwait hstart hk)⟩

/-- Settles O40: the map gives nothing in its gaps. -/
theorem readOutsideTheMapIsIllegal : Obligations.ReadOutsideTheMapIsIllegal :=
  fun s _ habove hgap => exec_read_of_unmapped (readMap_gap s.regs habove hgap)

/-- Settles O47: in safe states `queued` is `TXV` and `sent` is `WAIT`, and each clause is what can set or clear
that register. -/
theorem lifecycleTransitions : Obligations.LifecycleTransitions := by
  intro i s t hsafe hexec
  have effect := effect_of_exec hexec
  have htsafe : t.regs.Inv t.config := effect.safe hsafe
  rw [Regs.isIn_queued, Regs.isIn_queued, hsafe.isIn_sent, htsafe.isIn_sent]
  refine ⟨fun hs ht => ?_, fun hs ht => ?_, fun hs ht => ?_, fun hs ht => ?_⟩
  · rcases effect.txV_cases with h | ⟨origin, ecc, code, payload, now, hi, -⟩ | ⟨-, h⟩
    · simp [h, hs] at ht
    · exact ⟨origin, ecc, code, payload, now, hi⟩
    · simp [h] at ht
  · rcases effect.txV_cases with h | ⟨_, _, _, _, _, -, h⟩ | ⟨hi, -⟩
    · simp [h, hs] at ht
    · simp [h] at ht
    · exact hi
  · rcases effect.wait_cases with h | ⟨hi, hheld, hpopped, -⟩ | ⟨-, h, -⟩ | ⟨-, h, -⟩
    · simp [h, hs] at ht
    · exact ⟨hi, hheld, hpopped⟩
    · simp [h] at ht
    · simp [h] at ht
  · rcases effect.wait_cases with h | ⟨-, -, -, h⟩ | ⟨hi, -, hstatus⟩ | ⟨hi, -, hstatus⟩
    · simp [h, hs] at ht
    · simp [h] at ht
    · exact .inl ⟨hi, by simpa [Regs.isIn, ht] using hstatus⟩
    · exact .inr ⟨hi, by simpa [Regs.isIn, ht] using hstatus⟩

/-- Settles O23: the accepted SEND, whose register update is R206's list. -/
theorem sendTransmitsAndStartsTheTimer : Obligations.SendTransmitsAndStartsTheTimer :=
  fun _ hwait hlink hheld haccept => exec_send_of_ready hwait hlink hheld haccept

/-- Settles O24: each clause is one check that fails after those before it passed. -/
theorem sendRefusalsInOrder : Obligations.SendRefusalsInOrder :=
  fun _ => ⟨exec_send_of_waiting, exec_send_of_linkDown, exec_send_of_empty, exec_send_of_notAccepted⟩

/-- Settles O32: the two cases of a TICK while a command waits. -/
theorem tickCountsAndTimesOut : Obligations.TickCountsAndTimesOut := by
  refine fun s hwait => ⟨fun hover => (execTick_eq s).trans ?_, fun hwithin => (execTick_eq s).trans ?_⟩
  · rw [tick_of_over hwait hover, if_pos hwait]
    rfl
  · rw [tick_of_within hwait hwithin, if_pos hwait]
    rfl

/-- Settles O33: the TICK leaves the registers, and answers from them. -/
theorem tickWithoutCommandChangesNothing : Obligations.TickWithoutCommandChangesNothing := by
  intro s hwait
  refine (execTick_eq s).trans ?_
  rw [tick_of_idle _ hwait, hwait]
  rfl

/-- Settles O36: ABORT looks at `TXV` alone. -/
theorem abortDropsOnlyTheHeldFrame : Obligations.AbortDropsOnlyTheHeldFrame :=
  fun _ => ⟨exec_abort_of_held, exec_abort_of_empty⟩

/-- Settles O37: the map's word, answered over the same registers. -/
theorem readAnswersTheMappedWord : Obligations.ReadAnswersTheMappedWord :=
  fun _ _ _ hmapped => exec_read_of_mapped hmapped

end Sys2Proof.Proofs
end

section
/-!
PROOF. The statements of spec/60_exceptions.md: a step never stops the machine (R253) and an idle one changes no
register (R266); and, all three from `exec_outcome`, which errors an operation can raise (R250, R252), that an
error leaves no trace (R251), and when `Evt` is emitted (R257).
-/

namespace Sys2Proof.Machine

/-! ### The outcomes of an operation (R250 to R252, R257) -/

/-- The errors an operation can raise under a configuration: the checks listed for it in R252. -/
def CanRaise (c : Config) : Instr → Err → Prop
  | .encode .., e => e = .payloadTooLong ∨ e = .unknownStation
  | .decode _, e | .receive _, e =>
    e = .tooShort ∨ e = .tooShortForPayload ∨ e = .invalidEccFlag ∨
      (e = .invalidMac ∧ c.macVerify = true)
  | .send, e => e = .queueEmpty ∨ e = .notConnected ∨ e = .transmitFailed ∨ e = .busy
  | .abort, e => e = .queueEmpty
  | .read _, e => e = .illegalOp
  | .tick, _ | .tag _, _ => False

/-- The events an operation emits when it succeeds in a state. -/
def State.successEvents (s : State) : Instr → List Event
  | .send => [.txFrame (heldFrame s.regs), .txTrigger, .evt]
  | .tick | .receive _ => if s.regs.wait = true then [.evt] else []
  | .encode .. | .decode _ | .abort | .tag _ | .read _ => []

theorem canRaise_of_parse_error {c : Config} {b : List Byte} {e : Err} (fails : parse c b = .error e) :
    CanRaise c (.decode b) e := by
  rcases parse_cases c b with ⟨-, h⟩ | ⟨-, -, h⟩ | ⟨-, -, -, h⟩ | ⟨-, -, hverify, -, h⟩ | ⟨-, -, -, h⟩ <;>
    cases h.symm.trans fails
  · exact .inl rfl
  · exact .inr (.inr (.inl rfl))
  · exact .inr (.inl rfl)
  · exact .inr (.inr (.inr ⟨rfl, hverify⟩))

/-- Every operation raises one of its errors or completes with its events. -/
theorem exec_outcome (i : Instr) (s : State) :
    (∃ e, CanRaise s.config i e ∧ exec i s = .next (s.raise e)) ∨
      ∃ r d, exec i s = .next (s.complete r d (s.successEvents i)) := by
  cases i with
  | encode origin ecc code payload now =>
    rcases execEncode_cases origin ecc code payload now s with ⟨-, h⟩ | ⟨-, -, h⟩ | ⟨-, -, h⟩
    · exact .inl ⟨_, .inl rfl, h⟩
    · exact .inl ⟨_, .inr rfl, h⟩
    · exact .inr ⟨_, _, h⟩
  | decode b =>
    rcases execDecode_cases b s with ⟨e, fails, h⟩ | ⟨f, -, h⟩
    · exact .inl ⟨e, canRaise_of_parse_error fails, h⟩
    · exact .inr ⟨_, _, h⟩
  | receive b =>
    rcases execReceive_cases b s with ⟨e, fails, h⟩ | ⟨f, -, hwait, h⟩ | ⟨f, -, hwait, h⟩
    · exact .inl ⟨e, canRaise_of_parse_error fails, h⟩
    all_goals
      rw [State.successEvents, hwait]
      exact .inr ⟨_, _, h⟩
  | send =>
    rcases execSend_cases s with ⟨-, h⟩ | ⟨-, -, h⟩ | ⟨-, -, -, h⟩ | ⟨-, -, -, -, h⟩ | ⟨-, -, -, -, h⟩
    · exact .inl ⟨_, .inr (.inr (.inr rfl)), h⟩
    · exact .inl ⟨_, .inr (.inl rfl), h⟩
    · exact .inl ⟨_, .inl rfl, h⟩
    · exact .inl ⟨_, .inr (.inr (.inl rfl)), h⟩
    · exact .inr ⟨_, _, h⟩
  | tick => exact .inr ⟨_, _, execTick_eq s⟩
  | abort =>
    rcases execAbort_cases s with ⟨-, h⟩ | ⟨-, h⟩
    · exact .inl ⟨_, rfl, h⟩
    · exact .inr ⟨_, _, h⟩
  | tag b => exact .inr ⟨_, _, execTag_eq b s⟩
  | read addr =>
    rcases execRead_cases addr s with ⟨-, h⟩ | ⟨v, -, h⟩
    · exact .inl ⟨_, rfl, h⟩
    · exact .inr ⟨_, _, h⟩

/-- The `ERR` byte of an answer tells which outcome it was, and with it the events. -/
theorem answer_cases {i : Instr} {s t : State} {err : Byte} {data : List Byte}
    (hexec : exec i s = .next t) (hresponse : t.response = some (err :: data)) :
    (∃ e : Err, CanRaise s.config i e ∧ err = e.code ∧ t.events = []) ∨
      (err = 0x00 ∧ t.events = s.successEvents i) := by
  rcases exec_outcome i s with ⟨e, hraises, h⟩ | ⟨r, d, h⟩ <;> cases h.symm.trans hexec <;>
    cases hresponse
  · exact .inl ⟨e, hraises, rfl, rfl⟩
  · exact .inr ⟨rfl, rfl⟩

theorem Err.code_ne_zero (e : Err) : e.code ≠ 0x00 := by
  cases e <;> decide

/-- The operations whose success emits `Evt` (R257). -/
theorem evt_mem_successEvents_iff (s : State) (i : Instr) :
    .evt ∈ s.successEvents i ↔
      i = .send ∨ (i = .tick ∧ s.regs.wait = true) ∨ (∃ b, i = .receive b ∧ s.regs.wait = true) := by
  cases i <;> simp [State.successEvents]

/-! ### The idle step (R266) -/

theorem step_of_empty {s : State} (hqueue : s.hostQueue = []) : step s = .next s.idle := by
  simpa [hqueue] using step_cases s

end Sys2Proof.Machine

namespace Sys2Proof.Proofs

open Sys2Proof.Machine

/-- Settles O9: an idle step, a reset and an illegal message answer a next state, and so does every operation. -/
theorem everyStepAnswersANextState : Obligations.EveryStepAnswersANextState := by
  intro s
  obtain ⟨t, ht, -⟩ := step_effect s
  exact ⟨t, ht⟩

/-- Settles O41: an error is raised by `State.raise` alone, and any other answer begins with OK. -/
theorem errorsLeaveNoTrace : Obligations.ErrorsLeaveNoTrace := by
  intro i s
  rcases exec_outcome i s with ⟨e, -, h⟩ | ⟨r, d, h⟩
  · exact ⟨_, _, _, h, rfl, fun _ => ⟨rfl, rfl, rfl⟩⟩
  · exact ⟨_, _, _, h, rfl, fun herr => absurd rfl herr⟩

/-- Settles O42: the errors an operation can raise, by their codes. -/
theorem eachOperationRaisesOnlyItsErrors : Obligations.EachOperationRaisesOnlyItsErrors := by
  intro i s t err data hexec hresponse herr
  rcases answer_cases hexec hresponse with ⟨e, hraises, rfl, -⟩ | ⟨hok, -⟩
  case inr => exact absurd hok herr
  cases i with
  | encode origin ecc code payload now =>
    refine .inl ⟨origin, ecc, code, payload, now, rfl, ?_⟩
    rcases hraises with rfl | rfl <;> simp [Err.code]
  | decode b | receive b =>
    refine .inr (.inl ⟨⟨b, by simp⟩, ?_⟩)
    rcases hraises with rfl | rfl | rfl | ⟨rfl, hverify⟩ <;> simp [Err.code, *]
  | send =>
    refine .inr (.inr (.inl ⟨rfl, ?_⟩))
    rcases hraises with rfl | rfl | rfl | rfl <;> simp [Err.code]
  | abort =>
    cases hraises
    exact .inr (.inr (.inr (.inl ⟨rfl, rfl⟩)))
  | read addr =>
    cases hraises
    exact .inr (.inr (.inr (.inr ⟨addr, rfl, rfl⟩)))
  | tick | tag b => exact hraises.elim

/-- Settles O43: an operation that raised emitted nothing, and TICK never raises; one that succeeded emitted its
events. -/
theorem evtExactlyOnStatusChange : Obligations.EvtExactlyOnStatusChange := by
  intro i s t err data hexec hresponse
  rcases answer_cases hexec hresponse with ⟨e, hraises, rfl, hevents⟩ | ⟨rfl, hevents⟩ <;> rw [hevents]
  · refine ⟨fun hmem => absurd hmem List.not_mem_nil, ?_⟩
    rintro (⟨-, hok⟩ | ⟨rfl, -⟩ | ⟨_, -, -, hok⟩)
    · exact absurd hok e.code_ne_zero
    · exact hraises.elim
    · exact absurd hok e.code_ne_zero
  · simpa using evt_mem_successEvents_iff s i

/-- Settles O6: the idle step, whose next state keeps all but the output. -/
theorem idleStepHoldsTheRegisters : Obligations.IdleStepHoldsTheRegisters :=
  fun _ hqueue => step_of_empty hqueue

end Sys2Proof.Proofs
end

section
/-!
PROOF. The statements of spec/70_reset_and_hazards.md: the registers a reset leaves (R280) are safe, and a reply
that arrives after it meets no waiting command (R281).
-/

namespace Sys2Proof.Machine

/-! ### The step of a reset and the step of a RECEIVE with no command outstanding -/

/-- A step that takes a reset puts the registers at their reset values (R280). -/
theorem step_of_reset {s : State} {rest : List HostInput} (hqueue : s.hostQueue = .reset :: rest) :
    step s = .next (s.takeReset rest) := by
  simpa [hqueue] using step_cases s

/-- The reset values depend on the configuration through `PAYLOAD_MAX` alone (R22, section 7). -/
theorem Regs.reset_congr {c c' : Config} (hsize : c.payloadMax.val = c'.payloadMax.val) :
    Regs.reset c = Regs.reset c' := by
  simp only [Regs.reset, Config.txBufSize, hsize]

/-- A step that takes the RECEIVE of an acceptable candidate with no command outstanding commits the frame, and
neither classifies it nor emits an event (R211). -/
theorem step_receive_of_idle {s : State} {b : List Byte} {linkUp txAccept : Bool} {rest : List HostInput}
    (hqueue : s.hostQueue = .op (encodeMessage (.receive b)) linkUp txAccept :: rest)
    (hlength : b.length ≤ 65535) (hacceptable : Acceptable s.config b) (hwait : s.regs.wait = false) :
    step s = .next ((s.takeOp linkUp txAccept rest).complete
      (s.regs.commitFrame (frameFields s.config.key b))
      (frameResponse (frameFields s.config.key b) ++ [flagByte false, s.regs.status.byte]) []) := by
  have hdecode : decodeMessage (encodeMessage (.receive b)) = .ok (.receive b) :=
    Proofs.encodedOperationDecodesToItself _ (decide_eq_true hlength)
  rw [step_eq_exec hqueue hdecode]
  exact exec_receive_of_idle (s := s.takeOp linkUp txAccept rest) (parse_of_acceptable hacceptable) hwait

/-- A run of two steps is the one step after the other. -/
theorem run_two_of_steps (M : Host.Core) {s t u : M.State} (first : M.step s = .next t)
    (second : M.step t = .next u) : M.run 2 s = .next u :=
  (run_succ_of_step M first 1).trans (run_succ_of_step M second 0)

end Sys2Proof.Machine

namespace Sys2Proof.Proofs

open Sys2Proof.Machine

/-- Settles O8: the reset clears `WAIT`, so the RECEIVE that follows only commits the frame. -/
theorem replyAfterResetIsNotClassified : Obligations.ReplyAfterResetIsNotClassified := by
  intro s b linkUp txAccept rest hlength hacceptable hqueue
  have hreset := step_of_reset hqueue
  have hreceive := step_receive_of_idle
    (s := s.takeReset (.op (encodeMessage (.receive b)) linkUp txAccept :: rest)) rfl hlength hacceptable rfl
  exact ⟨_, run_two_of_steps Sys2Proof.core hreset hreceive, rfl, rfl, rfl, rfl, rfl, rfl⟩

/-- Settles O7: the next state holds the reset values of its configuration, which are those of `State.reset` for
the same `PAYLOAD_MAX`. -/
theorem resetClearsEveryRegister : Obligations.ResetClearsEveryRegister := by
  refine ⟨rfl, fun s rest hqueue =>
    ⟨s.takeReset rest, step_of_reset hqueue, fun hsize => ?registers, ?values⟩⟩
  case registers => exact Regs.reset_congr hsize
  case values => and_intros <;> rfl

/-- Settles O53: the reset values meet the invariant under every configuration, this hardware's included. -/
theorem resetIsSafe : Obligations.ResetIsSafe :=
  ⟨Regs.reset_inv Config.hardware, Regs.reset_inv⟩

end Sys2Proof.Proofs
end
